-- ==== Sys2Proof/Word.lean ====
section
/-! DEFINITION. The word types of the Brelia 2480 (R2, R3, R27, R29) and their plainest arithmetic. -/

namespace Sys2Proof

/-- A scalar register, a lane of a vector register, a memory word: 64 bits (R27, R29). -/
abbrev Word := BitVec 64

/-- A lane mask: bit l is lane l (R23 to R26). -/
abbrev Mask := BitVec 32

/-- A byte of memory (R3). -/
abbrev Byte := BitVec 8

/-- An association list in canonical form: keys strictly rising, no entry equal to the default.
Registers, scratchpad words and tiles are held so, since all of them read as zero at launch
(R31, R98, R30). -/
abbrev SMap (α : Type) := List (Nat × α)

/-- All lanes (R25: p0 reads as this). -/
abbrev Mask.all : Mask := 0xFFFFFFFF#32

/-- Bits [hi:lo] of a number (R3). -/
def bitsOf (n hi lo : Nat) : Nat := n / 2 ^ lo % 2 ^ (hi + 1 - lo)

/-- Bit `i` of a number as a Bool. -/
def bitOf (n i : Nat) : Bool := n / 2 ^ i % 2 == 1

end Sys2Proof
end

