-- ==== Sys2Proof/Config.lean ====
section
/-! DEFINITION. What one implementation fixes and the manual does not state: free values without a
body. No statement rests on one of them. -/

namespace Sys2Proof.Config

/-- FREE VALUE. Whether an ML-DSA-44 signature over the SHA3-256 digest of a firmware image verifies
under the fused key (R240): the key and the signature's place in the image are not in the manual.
Log entry 5. -/
opaque signatureVerifies : List Byte → Bool

/-- FREE VALUE. The bytes of an SPDM answer that the manual does not state (versions, capabilities,
certificates, signatures, R242), by request kind, nonce and draw. Log entry 6. -/
opaque spdmBytes : Nat → List Byte → Nat → List Byte

/-- FREE VALUE. The contents of the boot ROM that MEAS0 measures (R242). Log entry 6. -/
opaque bootRom : List Byte

/-- FREE VALUE. The bytes of the repair record, whose form the manual does not give, for its failed cores,
slices, channels and stacks (R13, R242). Log entry 6. -/
opaque repairBytes : List Nat → List Nat → List Nat → List Nat → List Byte

/-- FREE VALUE. The E4M3 code by which FILLWB ranks an E2M1S element of code 1000: its spare lies in a
scale entry that FILLWB does not read (R152, R191). Log entry 16. -/
opaque fillSpare : Nat → Nat

end Sys2Proof.Config
end

