-- ==== Sys2Proof/Machine/Sha3.lean ====
section
/-! DEFINITION. SHA3-256, the one digest of the device (R240, R242). The state is 25 lanes, lane x + 5 y. -/

namespace Sys2Proof.Machine.Sha3

/-- Rotation offsets of ρ by lane. -/
def rotc : List Nat :=
  [0, 1, 62, 28, 27, 36, 44, 6, 55, 20, 3, 10, 43, 25, 39, 41, 45, 15, 21, 8, 18, 2, 61, 56, 14]

/-- Round constants of ι. -/
def rcs : List Word :=
  [0x0000000000000001#64, 0x0000000000008082#64, 0x800000000000808A#64, 0x8000000080008000#64,
    0x000000000000808B#64, 0x0000000080000001#64, 0x8000000080008081#64, 0x8000000000008009#64,
    0x000000000000008A#64, 0x0000000000000088#64, 0x0000000080008009#64, 0x000000008000000A#64]
  ++ [0x000000008000808B#64, 0x800000000000008B#64, 0x8000000000008089#64, 0x8000000000008003#64,
    0x8000000000008002#64, 0x8000000000000080#64, 0x000000000000800A#64, 0x800000008000000A#64,
    0x8000000080008081#64, 0x8000000000008080#64, 0x0000000080000001#64, 0x8000000080008008#64]

/-- One round of Keccak-f[1600]. -/
def round (a : List Word) (rc : Word) : List Word :=
  let at_ (l : List Word) (i : Nat) : Word := l.getD i 0
  let c := (List.range 5).map (fun x => at_ a x ^^^ at_ a (x + 5) ^^^ at_ a (x + 10) ^^^ at_ a (x + 15) ^^^ at_ a (x + 20))
  let d := (List.range 5).map (fun x => at_ c ((x + 4) % 5) ^^^ (at_ c ((x + 1) % 5)).rotateLeft 1)
  let t := (List.range 25).map (fun i => at_ a i ^^^ at_ d (i % 5))
  let b := (List.range 25).map (fun j =>
    let x := j % 5
    let y := j / 5
    let i := (x + 3 * y) % 5 + 5 * x
    (at_ t i).rotateLeft (rotc.getD i 0))
  let e := (List.range 25).map (fun i =>
    let y := i / 5 * 5
    at_ b i ^^^ (~~~(at_ b (y + (i + 1) % 5)) &&& at_ b (y + (i % 5 + 2) % 5)))
  e.set 0 (at_ e 0 ^^^ rc)

/-- Keccak-f[1600]. -/
def permute (a : List Word) : List Word := rcs.foldl round a

/-- Absorb blocks of 136 bytes; `n` bounds their number. -/
def absorb : Nat → List Word → List Byte → List Word
  | 0, a, _ => a
  | n + 1, a, bs =>
    if bs.isEmpty then a
    else
      let blk := bs.take 136
      let a1 := (List.range 25).map (fun i =>
        if i < 17 then a.getD i 0 ^^^ BitVec.ofNat 64 (leVal ((blk.drop (8 * i)).take 8)) else a.getD i 0)
      absorb n (permute a1) (bs.drop 136)

/-- A message with its SHA3 padding. -/
def pad (m : List Byte) : List Byte :=
  let k := 136 - m.length % 136
  m ++ (if k = 1 then [0x86] else 0x06 :: List.replicate (k - 2) 0 ++ [0x80])

/-- SHA3-256 of a message: 32 bytes. -/
def digest (m : List Byte) : List Byte :=
  let p := pad m
  let a := absorb (p.length / 136) (List.replicate 25 0) p
  (a.take 4).flatMap (fun w => leBytes 8 w.toNat)

end Sys2Proof.Machine.Sha3
end

