-- ==== Sys2Proof/Syntax.lean ====
section
/-! DEFINITION. The instructions of the Brelia 2480: one constructor per row of
spec/opcode_table.json, the 155 instructions with their operands as R252 to R258 give them, and the
85 device events with the choice or input each of them carries. -/

namespace Sys2Proof

/-- The type codes of R257, in code order. -/
inductive Ty where
  | s8 | s16 | s32 | s64 | n8 | n16 | n32 | n64
  | s4 | n4 | f32 | f16 | bf16 | e4m3 | e5m2 | e2m1s
deriving DecidableEq, Repr

/-- The size codes of R258, in code order. -/
inductive Size where
  | b8 | b16 | b32 | b64 | pair | quad
deriving DecidableEq, Repr

/-- XP predication (R24, R255): PRED (0 none) and NEG. -/
structure Pred where
  p : Nat
  neg : Bool
deriving DecidableEq, Repr

/-- Operand B of format V: a vector register, or a scalar register under XP.BS (R252, R255). -/
inductive VOp where
  | v (n : Nat)
  | s (n : Nat)
deriving DecidableEq, Repr

/-- The conditions of SSET (R269): .eq .ne .lt .ge .lt.n .ge.n. -/
inductive SCmp where
  | eq | ne | lt | ge | ltn | gen
deriving DecidableEq, Repr

/-- COND 1 to 6 of R259. -/
inductive BCond where
  | z | nz | lt | ge | gt | le
deriving DecidableEq, Repr

/-- COND 7 to 9 of R259. -/
inductive PCond where
  | pany | pnone | pall
deriving DecidableEq, Repr

/-- The functions of VSF (R355). -/
inductive SfFn where
  | rcp | rsq | exp2 | log2 | sin | cos | tanh | sqrt
deriving DecidableEq, Repr

/-- The tokens of VEXPR (R260), in code order. -/
inductive Tok where
  | fin | i0 | i1 | i2 | i3 | add | sub | mul | fma | min | max | neg | abs | exp2 | rcp | dup
deriving DecidableEq, Repr

/-- The operations of VVOTE (R359). -/
inductive VoteOp where
  | ballot | any | all | count
deriving DecidableEq, Repr

/-- The operations of VRED and VSCAN (R352). -/
inductive RedOp where
  | add | min | max
deriving DecidableEq, Repr

/-- The operations of VATOM (R335), T 0 to 10. -/
inductive AtOp where
  | add | min | max | minu | maxu | and | or | xor | xchg | cas | fadd
deriving DecidableEq, Repr

/-- The comparisons of WAITA (R360). -/
inductive WCmp where
  | eq | ne | gen | ltn
deriving DecidableEq, Repr

/-- A work-graph record (R48): the header's fields and payload words 0 to 5. -/
structure Record where
  node : Nat
  aidx : Nat
  depth : Nat
  npay : Nat
  srcdev : Nat
  srccore : Nat
  remote : Bool
  seq : Nat
  pay : List Word
deriving DecidableEq, Repr

/-- What a request of another device asks of a home here (R199): one lane of an access, whose size is in bytes; the data
of a store are its 8-byte words. -/
inductive ReqKind where
  | load (size : Nat)
  | store (size : Nat) (data : List Word)
  | atomic (op : AtOp) (size : Nat) (a b : Word)
deriving DecidableEq, Repr

/-- The ONE instruction type: a constructor per row of spec/opcode_table.json. Scalar operands are 0
to 191, vector operands 0 to 255 (window relative), predicates 0 to 15, tiles 0 to 63 (R254). -/
inductive Instr where
  | sadd (d a b : Nat)
  | ssub (d a b : Nat)
  | saddi (d a : Nat) (imm : Int)
  | smul (d a b : Nat)
  | smulh (d a b : Nat)
  | smulhN (d a b : Nat)
  | sand (d a b : Nat)
  | sor (d a b : Nat)
  | sxor (d a b : Nat)
  | sandn (d a b : Nat)
  | sandi (d a : Nat) (imm : Int)
  | sori (d a : Nat) (imm : Int)
  | sxori (d a : Nat) (imm : Int)
  | sshl (d a b : Nat)
  | sshr (d a b : Nat)
  | ssra (d a b : Nat)
  | sshlImm (d a n : Nat)
  | sshrImm (d a n : Nat)
  | ssraImm (d a n : Nat)
  | sset (c : SCmp) (d a b : Nat)
  | smin (d a b : Nat)
  | smax (d a b : Nat)
  | sminN (d a b : Nat)
  | smaxN (d a b : Nat)
  | smov (d a : Nat)
  | ssel (d a b : Nat) (q : Pred)
  | smovi (d : Nat) (imm : Int)
  | smoviHi (d : Nat) (imm : Int)
  | sbfx (d a b : Nat)
  | sbfxN (d a b : Nat)
  | sbfi (d a b : Nat)
  | sclz (d a : Nat)
  | spopc (d a : Nat)
  | sld (d a : Nat) (off : Int) (z : Size) (scope : Nat) (nt : Bool)
  | sst (d a : Nat) (off : Int) (z : Size) (scope : Nat) (nt : Bool)
  | bra (off : Int)
  | bcc (c : BCond) (r : Nat) (off : Int)
  | bccPred (c : PCond) (p : Nat) (off : Int)
  | call (off : Int)
  | ret
  | jmpi (a : Nat)
  | pand (d a b : Nat)
  | por (d a b : Nat)
  | pxor (d a b : Nat)
  | pnot (d a : Nat)
  | pcnt (d a : Nat)
  | pcntAny (d a : Nat)
  | pcntAll (d a : Nat)
  | xmset (p : Nat)
  | xmpush (p : Nat)
  | xmpop
  | xmelse
  | sysrd (d : Nat) (num : Int)
  | syswr (a : Nat) (num : Int)
  | wbase (n : Int)
  | regrel (n : Int)
  | regclm (n : Int)
  | rngsetSeed (a : Nat)
  | rngsetCtr (a : Nat)
  | rnggetCtr (d : Nat)
  | rnggetSeed (d : Nat)
  | trap (a : Nat)
  | tret
  | brk
  | nop
  | yield
  | exit
  | vadd (d a : Nat) (b : VOp) (t : Ty) (q : Pred) (sat : Bool)
  | vsub (d a : Nat) (b : VOp) (t : Ty) (q : Pred) (sat : Bool)
  | vaddi (d a : Nat) (imm : Int) (t : Ty) (q : Pred) (sat : Bool)
  | vmul (d a : Nat) (b : VOp) (t : Ty) (q : Pred) (sat : Bool)
  | vmulh (d a : Nat) (b : VOp) (t : Ty) (q : Pred)
  | vmad (d a : Nat) (b : VOp) (t : Ty) (q : Pred) (sat : Bool)
  | vdiv (d a : Nat) (b : VOp) (t : Ty) (q : Pred)
  | vrem (d a : Nat) (b : VOp) (t : Ty) (q : Pred)
  | vand (d a : Nat) (b : VOp) (q : Pred)
  | vor (d a : Nat) (b : VOp) (q : Pred)
  | vxor (d a : Nat) (b : VOp) (q : Pred)
  | vnot (d a : Nat) (q : Pred)
  | vshl (d a : Nat) (b : VOp) (t : Ty) (q : Pred)
  | vshr (d a : Nat) (b : VOp) (t : Ty) (q : Pred)
  | vsra (d a : Nat) (b : VOp) (t : Ty) (q : Pred)
  | vmin (d a : Nat) (b : VOp) (t : Ty) (q : Pred)
  | vmax (d a : Nat) (b : VOp) (t : Ty) (q : Pred)
  | vcmpEq (d a : Nat) (b : VOp) (t : Ty) (e : Nat) (q : Pred)
  | vcmpNe (d a : Nat) (b : VOp) (t : Ty) (e : Nat) (q : Pred)
  | vcmpLt (d a : Nat) (b : VOp) (t : Ty) (e : Nat) (q : Pred)
  | vcmpLe (d a : Nat) (b : VOp) (t : Ty) (e : Nat) (q : Pred)
  | vcmpUn (d a : Nat) (b : VOp) (t : Ty) (e : Nat) (q : Pred)
  | vsel (d a : Nat) (b : VOp) (p : Nat) (q : Pred)
  | vdp4 (d a b : Nat) (sat sb sa : Bool) (q : Pred)
  | vdp8 (d a b : Nat) (sat sb sa : Bool) (q : Pred)
  | vclz (d a : Nat) (t : Ty) (q : Pred)
  | vpopc (d a : Nat) (t : Ty) (q : Pred)
  | vmov (d a : Nat) (q : Pred)
  | vmovBcast (d a : Nat) (q : Pred)
  | vmovLane (d : Nat) (q : Pred)
  | vmovi (d : Nat) (imm : Int) (t : Ty) (q : Pred)
  | vfadd (d a : Nat) (b : VOp) (t : Ty) (q : Pred) (rnd : Nat)
  | vfsub (d a : Nat) (b : VOp) (t : Ty) (q : Pred) (rnd : Nat)
  | vfmul (d a : Nat) (b : VOp) (t : Ty) (q : Pred) (rnd : Nat)
  | vfma (d a : Nat) (b : VOp) (t : Ty) (q : Pred) (rnd : Nat)
  | vfms (d a : Nat) (b : VOp) (t : Ty) (q : Pred) (rnd : Nat)
  | vfmin (d a : Nat) (b : VOp) (t : Ty) (q : Pred)
  | vfmax (d a : Nat) (b : VOp) (t : Ty) (q : Pred)
  | vcvt (d a : Nat) (dst src : Ty) (q : Pred) (rnd : Nat) (sat : Bool)
  | vsf (d a : Nat) (f : SfFn) (q : Pred)
  | vexpr (d i0 i1 i2 i3 : Nat) (t : Ty) (toks : List Tok) (sat rnef : Bool)
  | vhad (d a : Nat) (h32 : Bool) (t : Ty) (q : Pred) (rnd : Nat)
  | vqnt (d a : Nat) (dst src : Ty) (had : Nat) (q : Pred) (rnd : Nat)
  | vshfl (d a : Nat) (b : VOp) (t : Ty) (q : Pred)
  | vvote (op : VoteOp) (d p b : Nat)
  | vred (op : RedOp) (d a : Nat) (t : Ty) (q : Pred) (rnd : Nat) (sat : Bool)
  | vscan (op : RedOp) (d a : Nat) (t : Ty) (q : Pred) (rnd : Nat) (sat : Bool)
  | vtopk (d a : Nat) (g : Bool) (k : Nat) (t : Ty) (q : Pred)
  | vrng (d : Nat) (t : Ty) (q : Pred)
  | trd (d : Nat) (col : Bool) (tile b aux : Nat) (t : Ty) (q : Pred) (rnd : Nat)
  | twr (d : Nat) (col : Bool) (tile b aux : Nat) (t : Ty) (q : Pred)
  | ttest (d : Nat) (col : Bool) (tile b aux : Nat) (q : Pred)
  | tzero (tile : Nat)
  | vld (d a b : Nat) (z : Size) (q : Pred) (scope : Nat) (nt : Bool)
  | vldLp (d a b : Nat) (z : Size) (q : Pred)
  | vst (d a b : Nat) (z : Size) (q : Pred) (scope : Nat) (nt : Bool)
  | vstLp (d a b : Nat) (z : Size) (q : Pred)
  | vatom32 (op : AtOp) (d a b : Nat) (q : Pred) (scope : Nat) (noret sp : Bool)
  | vatom64 (op : AtOp) (d a b : Nat) (q : Pred) (scope : Nat) (noret sp : Bool)
  | tld (d a b : Nat) (elog : Nat) (q : Pred) (nt : Bool)
  | tst (d a b : Nat) (elog : Nat) (q : Pred) (nt : Bool)
  | spld (d a b : Nat) (z : Size) (q : Pred)
  | splds (d a b : Nat) (q : Pred)
  | spldSt (d a b : Nat) (q : Pred)
  | spst (d a b : Nat) (z : Size) (q : Pred)
  | spstf (d a b : Nat) (q : Pred)
  | spset (f : Bool) (a b : Nat) (q : Pred)
  | waita (c : WCmp) (d a b : Nat)
  | waitaSp (c : WCmp) (d a b : Nat)
  | phase (scope : Nat)
  | phaseRel (scope : Nat)
  | phaseAcq (scope : Nat)
  | drain
  | shinv (d a b : Nat)
  | emit (d a : Nat) (b : VOp) (n : Nat) (q : Pred)
  | emitS (d a b n : Nat)
  | recldV (d w c : Nat) (q : Pred)
  | recldS (d w c : Nat)
  | bar (a b : Nat)
  | barArv (a b : Nat)
  | barWt (a b : Nat)
  | waitpred
  | hintsucc
  | wdq (a : Nat)
  | depsetArm (d a b : Nat)
  | depsetDec (d a : Nat)
  | mmq (a : Nat)
  | cpq (a : Nat)
  -- device events: the crew `c` of cohort `u`, the slot `i` of an instance, or what each line names
  | freezePointReached (u c : Nat)
  | compactorMoveDone (u c : Nat)
  | placementRound (die : Nat)
  | nodeAges (i node : Nat)
  | reservationTake (i node elem : Nat)
  | lingerExpiry (i node elem : Nat)
  | evictionClaim (die : Nat)
  | evictionSaveComplete (u : Nat)
  | runlimitExpiry (u : Nat)
  | graphdeadlock (i : Nat)
  | instanceComplete (i : Nat)
  | emitWake (u c : Nat)
  | counterPendingEnqueue (i ctr : Nat)
  | loamSpill (die cluster : Nat)
  | loamRefill (i node elem : Nat)
  | remoteRecordArrival (src die sn tag : Nat) (granted : Bool) (r : Record)
  | remoteRecordRefused (id : Nat)
  | dropNotice (id : Nat)
  | reservationRequest (src tag node elem n : Nat)
  | reservationGrant (dev tag node elem n : Nat)
  | reservationExpiry (id : Nat)
  | remoteRecordAck (id : Nat)
  | wdqAnswer (id : Nat)
  | taskMma (core id : Nat)
  | taskMmaSc (core id : Nat)
  | taskMmaInt (core id : Nat)
  | taskRingdef (core id : Nat)
  | taskTclear (core id : Nat)
  | matrixStep (core id : Nat)
  | jobCopy (core id n : Nat)
  | jobCopy2d (core id n : Nat)
  | jobGatherbt (core id n : Nat)
  | jobWiden (core id n : Nat)
  | jobFillwb (core id n : Nat)
  | itemRetire (core id : Nat)
  | itemFailure (core id : Nat)
  | cowCopyDone (die ctx page : Nat)
  | translationOutcome (u c page : Nat) (rewalk : Bool)
  | pageAnswer (die page ctx gen : Nat) (fail : Bool)
  | shootdown (die ctx page : Nat)
  | contextKill (ctx : Nat)
  | loadReturn (id : Nat) (stamps : List Nat)
  | storePerformed (id : Nat) (l1 : Bool)
  | remoteRequest (src rid ctx gen : Nat) (va : Word) (k : ReqKind)
  | remoteResponse (rid : Nat) (v : Word) (fail : Bool)
  | remoteTimeout (rid : Nat)
  | waitaWatchAnswer (rid : Nat) (v : Word)
  | waitaWatchRenew (rid : Nat)
  | shinvRelay (parent rid tensor : Nat) (children : List Nat)
  | shinvAck (id child : Nat)
  | shinvFence (id child : Nat) (grand : List Nat)
  | atsTranslationResponse (ctx page : Nat) (bus : Option Nat) (w : Bool)
  | atsInvalidation (ctx page : Nat)
  | priResponse (ctx page : Nat) (ok : Bool)
  | laneFailure (port lane : Nat)
  | deviceAdmit (dev : Nat)
  | mailboxSend (i j : Nat) (msg : List Word)
  | uncorrectableError (line : Nat)
  | correctedError
  | thermalLimit (block : Nat)
  | reset
  | firmwareVerifyDone (devid porten membytes : Nat)
  | fwlockWrite (v : Word)
  | loadWindowWrite (off : Nat) (data : List Byte)
  | registerWrite (off : Nat) (v : Word)
  | getVersion
  | getCapabilities
  | negotiateAlgorithms
  | getDigests
  | getCertificate
  | challenge (nonce : List Byte)
  | getMeasurements (nonce : List Byte)
  | walkerVisit (qsb : Word)
  | packetNop (qsb : Word)
  | graphLaunch (qsb : Word)
  | writeValue (qsb : Word)
  | writeValueDone (qsb : Word)
  | waitValue (qsb : Word)
  | indirect (qsb : Word)
  | checkpointStart (bound : Nat)
  | checkpointQuiesced
  | checkpointTimeout
  | checkpointRestore (k : Nat)
  | waitaWatch (src rid ctx gen : Nat) (va : Word)
  | wakeConditionRecheck (u c : Nat)
deriving DecidableEq, Repr

end Sys2Proof
end

