-- ==== Sys2Proof/Machine/State.lean ====
section
/-! DEFINITION. The state of the Brelia 2480: every register, memory, queue and table the manual gives
the device, as plain data; what a run may stop with; and the state after reset. -/

namespace Sys2Proof.Machine

/-- Traps of a crew wait here with everything R211 and R217 record: the cause code of R210, the
fault registers, the resume PC, and the device and abort code of the fault record (R220). A `late` trap
is taken at the crew's next issue and resumes there (R217). -/
structure Trap where
  cause : Nat
  pc : Word
  lanes : Mask := 0
  addr : Word := 0
  lcause : Word := 0
  resume : Word
  xdev : Nat := 0
  code : Nat := 0
  late : Bool := false
deriving DecidableEq, Repr

/-- A lane that has faulted in the unit being issued (R211): its cause and address. `first` marks a
fault found in resolution or in an earlier pass, which R146 reports before the others; `xdev` names the
device of a failed or timed-out access, `fence` says that it is a fenced one (R149), `late` that the lane has timed
out (R201). -/
structure LaneFault where
  lane : Nat
  cause : Nat
  addr : Word
  rank : Nat := 0
  xdev : Option Nat := none
  fence : Bool := false
  late : Bool := false
deriving DecidableEq, Repr

/-- Kinds of access for translation (R128). -/
inductive Acc where
  | load | store | atomic
deriving DecidableEq, Repr

/-- The outcome of a walk (R128): the home of the page's 64 KiB as the key of its first byte, a cause,
or a page request of a kind (R133). -/
inductive Xlat where
  | home (key : Nat)
  | fault (cause : Nat)
  | req (kind : Nat)
deriving DecidableEq, Repr

/-- Where a returned value goes: nowhere, a scalar register, or key 32 × index + lane of a vector
register. -/
inductive Dst where
  | none
  | s (n : Nat)
  | v (key : Nat)
deriving DecidableEq, Repr

/-- What a crew waits for (R42, R224). `none` covers a crew that runs or is stalled at issue. -/
inductive Wait where
  | none
  | barrier (b : Nat)
  | emit (node elem : Nat)
  | emitRemote
  | sp (off : Nat) (full : Bool)
  | waita (k : WCmp) (va : Word) (cmp : Word)
  | waitaSp (k : WCmp) (off : Nat) (cmp : Word)
  | waitpred
  | regclm (n : Nat)
  | page (page : Nat)
  | logFull
  | logPage (page : Nat)
  | release
  | remote
  | yield
deriving DecidableEq, Repr

/-! ## The crew -/

/-- Registers of a crew (R19, R25, R27, R29): the PC, s1 to s191, vector lanes by key
32 × crew-linear index + lane, p1 to p15. `ulen` is the model's own: the bytes of the unit being
issued, prefixes included (R250). -/
structure Regs where
  pc : Word := 0
  ulen : Nat := 4
  s : SMap Word := []
  v : SMap Word := []
  p : SMap Mask := []
deriving DecidableEq, Repr

/-- Occupancy mask, execution mask and mask stack (R23, R24, R26). -/
structure Masks where
  om : Mask := 0
  xm : Mask := 0
  stack : SMap Mask := []
  msd : Nat := 0
deriving DecidableEq, Repr

/-- Control and status of a crew (R37 to R39, R67, R173, R213, R214). `nfl` holds IV DZ OF UF NX IO
SAT under keys 0 to 6; `xat` is the cycle in which XDEV was captured (R201), `waited` says that a WAITPRED of the crew
has returned (R362). -/
structure Ctl where
  ccr : Word := 0
  xsr : Nat := 0
  xdev : Nat := 0
  xat : Nat := 0
  wbase : Nat := 0
  nfl : SMap Mask := []
  hnd : Bool := false
  skid : Nat := 0
  seed : Word := 0
  ctr : Word := 0
  hinted : Bool := false
  waited : Bool := false
  exited : Bool := false
  frozen : Bool := false
  stopping : Bool := false
  moving : Bool := false
deriving DecidableEq, Repr

/-- FPC, FCAUSE, FLANES, FADDR, FLCAUSE (R211), and the device that the trap named, for a fault record that a
handler's TRAP makes of it (R220, R289). -/
structure FaultRegs where
  pc : Word := 0
  cause : Nat := 0
  lanes : Mask := 0
  addr : Word := 0
  lcause : Word := 0
  xdev : Nat := 0
deriving DecidableEq, Repr

/-- The wait of a crew and the progress of the unit being resumed (R54, R100, R134, R146, R226):
the order in which it began, lanes already done, pages or scratchpad words held for, lane faults met
so far, whether the unit's release or arrival is done, whether the wake condition of an evicted crew held
when it was last examined (R224), the records an EMIT has still to send (lane,
target device or 1,024 for a local target, record), the blocks that an MMQ or CPQ has read (R176), the cycle in
which the wait began (R35), the accesses of the unit that have gone out (R94), the descriptor and map entries that
it resolves with, each with its tensor (R143), whether an invalidation has passed meanwhile, so that no cache keeps
them (R148), the next access number when the first of them was resolved with (R148), and whether it has left a trap for
the next issue (R227). -/
structure WaitSt where
  kind : Wait := .none
  seq : Nat := 0
  done : Mask := 0
  pages : List Nat := []
  lf : List LaneFault := []
  begun : Bool := false
  wake : Bool := false
  emits : List (Nat × Nat × Record) := []
  held : List Word := []
  at_ : Nat := 0
  own : List Nat := []
  marl : List (Nat × Nat × List Word) := []
  stale : Bool := false
  res : Nat := 0
  told : Bool := false
deriving DecidableEq, Repr

/-- The shadow state of a handler (R216), with the progress of a unit that is entered again (R217). -/
structure Shadow where
  pc : Word := 0
  xm : Mask := 0
  msd : Nat := 0
  w : WaitSt := {}
deriving DecidableEq, Repr

/-- What a crew may observe of memory: the instant of its latest acquire (R109), the coherence floor
of each byte by VA (R108), stores performed at L1 that it must see (R112), its lane-private bytes
(R104), translation outcomes known for the unit (R129), pages asked for, and the words fetched for the
unit being issued, each as its value + 1 (R249). -/
structure View where
  acq : Nat := 0
  floors : SMap Nat := []
  musts : List Nat := []
  lp : SMap Byte := []
  xout : List (Nat × Acc × Xlat) := []
  xwait : List (Nat × Acc) := []
  ibuf : SMap Nat := []
deriving DecidableEq, Repr

/-- A crew (R19): crew `idx` of cohort `uid`. `size` is RALLOC.SIZE, `ext` its extents in the core's register
pool as first granule and exponent (R32), `pend` the traps of R213, `fail`
the earliest failed side-log entry of R137 with its number. -/
structure Crew where
  uid : Nat
  idx : Nat
  stage : Nat := 0
  r : Regs := {}
  m : Masks := {}
  g : Ctl := {}
  f : FaultRegs := {}
  h : Shadow := {}
  w : WaitSt := {}
  x : View := {}
  size : Nat := 8
  pend : List Trap := []
  fail : Option (Nat × Trap) := none
  slot : Nat := 0
  ext : List (Nat × Nat) := []
deriving DecidableEq, Repr

/-! ## The cohort -/

/-- A record in a queue (R48, R57, R245): its own number, how often it was re-queued, and the Silt block
that holds it with its place there, none for a Loam slot (R57, R59). -/
structure QRec where
  id : Nat
  r : Record
  req : Nat := 0
  blk : Option Nat := none
  pos : Nat := 0
deriving DecidableEq, Repr

/-- A cohort's shape and share of its core (R20, R33, R84). `core` is the even core of a spanning
cohort. -/
structure Shape where
  ncrew : Nat
  span : Bool := false
  core : Nat
  budget : Nat
  free : Nat
  kib : Nat := 0
  tiles : Nat := 0
deriving DecidableEq, Repr

/-- Scratchpad words by index and full/empty bits (R98). -/
structure Scratch where
  w : SMap Word := []
  full : SMap Bool := []
deriving DecidableEq, Repr

/-- Accumulator tiles (R30): element and LS flag under key
((side × 64 + tile) × 1,024 + row × 32 + column), tile status IV OF SAT in bits 0 to 2 under
side × 64 + tile (R167). Side 1 is the odd core of a spanning cohort. -/
structure Tiles where
  e : SMap (BitVec 32) := []
  ls : SMap Bool := []
  st : SMap Nat := []
deriving DecidableEq, Repr

/-- A barrier whose arrival set is not empty (R296). -/
structure Bar where
  n : Nat
  arr : List Nat
  mask : Nat
deriving DecidableEq, Repr

/-- A ring definition (R181). -/
structure Ring where
  count : Nat
  slotKib : Nat
  base : Nat
  tag : Nat
deriving DecidableEq, Repr

/-- Whether a cohort holds a core (R222 to R225); `landing` is one whose placement takes effect in the die's next
round (R80), `dead` an aborted cohort whose engine items still run (R194). -/
inductive Ev where
  | placed
  | landing
  | saving
  | evicted (slot : Nat)
  | dead
deriving DecidableEq, Repr

/-- A halt in progress (R214, R219): the first crew and its trap, and whether the cohort aborts. -/
structure Halt where
  crew : Nat
  trap : Trap
  abort : Bool
  hnd : Bool := false
  xm : Mask := 0
  msd : Nat := 0
  image : Bool := true
deriving DecidableEq, Repr

/-- A cohort (R19, R50): among the rest, the crew slots that its crews hold on their cores (R85), and whether a save
has written its lane-private regions back (R104). -/
structure Cohort where
  uid : Nat
  inst : Nat
  serial : Nat := 0
  ctx : Nat := 0
  node : Nat
  elem : Nat
  x : Nat := 0
  y : Nat := 0
  z : Nat := 0
  sh : Shape
  recs : List QRec := []
  depth : Nat := 0
  sp : Scratch := {}
  tl : Tiles := {}
  bars : List Bar := []
  rings : SMap (Option Ring) := []
  run : Nat := 0
  expired : Bool := false
  halt : Option Halt := none
  ev : Ev := .placed
  lp : Option Nat := none
  space : Option Nat := none
  effects : Bool := false
  early : Bool := false
  placedAt : Nat := 0
  slots : List Nat := []
  back : Bool := false
deriving DecidableEq, Repr

/-! ## The instance -/

/-- A decoded node descriptor (R45). -/
structure Node where
  entry : Word := 0
  const : Word := 0
  ingress : Bool := false
  pbias : Int := 0
  replay : Bool := false
  early : Bool := false
  maxdepth : Nat := 0
  alast : Nat := 0
  ncrew : Nat := 1
  kind : Nat := 1
  sstart : List Nat := [0, 1, 1, 1, 1, 1, 1, 1]
  ireg : List Nat := [1, 0, 0, 0, 0, 0, 0, 0]
  resident : Nat := 0
  tiles : Nat := 0
  scratch : Nat := 0
  budget : Nat := 1
  linger : Nat := 0
  cap : Nat := 1
  pcount : Nat := 0
  runlimit : Nat := 1
  handler : Word := 0
  out : List Nat := []
  pred : List Nat := []
  depth : Nat := 0
deriving DecidableEq, Repr

/-- The queue of one element (R56 to R59): re-queued records ahead of the Loam part, the Loam part,
the Silt blocks, records held by live REPLAY cohorts, the SEQ count, and the cycle of the last
arrival with the mark that LINGER cycles have passed since (R61). -/
structure Queue where
  node : Nat
  elem : Nat
  back : List QRec := []
  loam : List QRec := []
  silt : List (List QRec) := []
  seq : Nat := 0
  last : Nat := 0
  linger : Bool := false
deriving DecidableEq, Repr

/-- A grid of cohorts still to be placed (R62, R63): the record it came from, its extent, the next
launch coordinate, and the tile space of a KIND 4 record. -/
structure Grid where
  node : Nat
  elem : Nat
  record : QRec
  gx : Nat
  gy : Nat
  gz : Nat
  next : Nat := 0
  space : Option Nat := none
deriving DecidableEq, Repr

/-- A tile space (R195). -/
structure Space where
  id : Nat
  gx : Nat
  gy : Nat
  gz : Nat
  next : Nat := 0
  left : Nat
deriving DecidableEq, Repr

/-- An armed dependence counter (R69, R70, R302); `seq` is the order in which a pending one blocked. -/
structure Counter where
  n : Nat
  remaining : Int
  pending : Bool := false
  seq : Nat := 0
  r : Record
deriving DecidableEq, Repr

/-- The offer of one element: the consecutive rounds in which it was walked and not placed (R86), and the
time since which it has not been placed (R87). -/
structure Offer where
  node : Nat
  elem : Nat
  walked : Nat := 0
  since : Nat := 0
deriving DecidableEq, Repr

/-- What GRAPH_LAUNCH sets (R233): addresses and values of the packet, with the queue it came from
(R231); `waiting` while its status word is on its way to another device or to the host (R369), `ending` once the
instance has completed and its completion word is on its way (R74). -/
structure Launch where
  serial : Nat := 1
  tag : Nat := 0
  prio : Nat := 0
  ctx : Nat := 0
  proc : Nat := 0
  qsb : Word := 0
  ictx : Word := 0
  siltVa : Word := 0
  compVa : Word := 0
  compVal : Word := 0
  irq : Option Nat := none
  seed : Word := 0
  dep : Option Nat := none
  waiting : Bool := false
  ending : Bool := false
deriving DecidableEq, Repr

/-- Areas of an instance (R57, R235, R236). -/
structure Areas where
  siltBlocks : Nat := 0
  saveVa : Word := 0
  slotSize : Nat := 0
  slots : Nat := 0
  slotsUsed : List Nat := []
  lpVa : Word := 0
  lpSize : Nat := 0
  lpAreas : Nat := 0
  lpUsed : List Nat := []
deriving DecidableEq, Repr

/-- A live graph instance in a slot 0 to 63 (R76, R220): among the rest, the rounds passed by node (R83),
the aged nodes in the order in which they aged, records held for replay (R59), the serial of the launch it
waits on, and the time since which only internal waits hold it (R75). -/
structure Inst where
  slot : Nat
  l : Launch := {}
  a : Areas := {}
  nodes : List Node := []
  queues : List Queue := []
  grids : List Grid := []
  spaces : List Space := []
  ctrs : List Counter := []
  offers : List Offer := []
  passed : SMap Nat := []
  aged : List Nat := []
  held : List QRec := []
  stuck : Option Nat := none
deriving DecidableEq, Repr

/-- How a launch ended (R234): 0 live, 1 completed, 2 halted, 3 rejected. -/
structure Past where
  serial : Nat
  proc : Nat
  qsb : Word
  outcome : Nat
deriving DecidableEq, Repr

/-! ## Memory accesses on their way -/

/-- One access of at most 8 bytes of a load (R106, R107). `remote` is its request to another device, or to
the host when the key lies in space 2 (R199, R209). -/
structure Part where
  lane : Nat
  va : Word
  n : Nat
  key : Nat
  dst : Dst
  remote : Option Nat := none
deriving DecidableEq, Repr

/-- A load that has issued and not returned (R109). `bound` is the acquire that bounds it; `xto` the
TRAPEN.XTO in force at its issue; `hold` that its crew is held until it returns; `tensor` that of a sharded access, with
`res`, when it was resolved (R148). -/
structure Load where
  id : Nat
  uid : Nat
  idx : Nat
  pc : Word
  resume : Word
  parts : List Part
  bound : Nat
  xto : Bool := false
  hold : Bool := false
  tensor : Option Nat := none
  res : Nat := 0
deriving DecidableEq, Repr

/-- A store or atomic that has issued and is not performed (R106, R110): `swap` is the second operand
of cas, `l1` the instant at which it was performed at the core's L1 (R112), `unit` the number of the first
access of its instruction, `node` its cohort's node, `aborted` that the cohort has aborted, `res` when a sharded one was
resolved (R148). -/
structure Store where
  id : Nat
  serial : Nat
  uid : Nat
  idx : Nat
  pc : Word
  lane : Nat
  va : Word
  n : Nat
  key : Nat
  data : Word
  op : Option AtOp := none
  swap : Word := 0
  dst : Dst := .none
  nt : Bool := false
  l1 : Option Nat := none
  remote : Option Nat := none
  xto : Bool := false
  tensor : Option Nat := none
  node : Nat := 0
  unit : Nat := 0
  aborted : Bool := false
  res : Nat := 0
deriving DecidableEq, Repr

/-- One lane of a side-log entry (R135). -/
structure LogLane where
  lane : Nat
  va : Word
  n : Nat
  data : Word
  op : Option AtOp := none
  swap : Word := 0
deriving DecidableEq, Repr

/-- A side-log entry: one instruction's lanes on one page (R135); `serial` is the launch of its instance,
`node` its cohort's node, `ctx` the context, `aborted` that the cohort has aborted, `xto` the TRAPEN.XTO in
force at its issue (R201), `res` when a sharded access was resolved (R148). -/
structure LogEntry where
  id : Nat
  serial : Nat
  core : Nat
  uid : Nat
  idx : Nat
  pc : Word
  page : Nat
  nt : Bool
  kind : Nat
  lanes : List LogLane
  tensor : Option Nat := none
  node : Nat := 0
  ctx : Nat := 0
  aborted : Bool := false
  xto : Bool := false
  res : Nat := 0
deriving DecidableEq, Repr

/-- Who asked for a request to another device (R199, R200); a watch names whether a handler's WAITA made it, an
item's read the first byte wanted, a request served for another device all that its answer needs (R124). -/
inductive Asker where
  | part (load : Nat) (lane : Nat) (dst : Dst)
  | store (id : Nat)
  | waita (uid idx : Nat) (hnd : Bool)
  | item (core id : Nat) (store : Bool) (first : Word)
  | fetch (uid idx : Nat)
  | queue (qsb : Word)
  | marl (uid idx : Nat)
  | completion (serial : Nat)
  | grid (serial node elem : Nat)
  | lp (uid : Nat)
  | served (src rid ctx : Nat) (k : ReqKind) (watch : Bool)
deriving DecidableEq, Repr

/-- A remote request outstanding (R199): the device and the port it left by (R198), the time `sent`; `ans` holds
the answer to a request that its asker reads itself, with `late` the outcome of its timeout (R200), `got` the words
of its answer that have come (R107, R142). A request whose port has gone down is `lost` (R204). One to host memory has the `key` of its home and the value `val`
that it stores (R209). -/
structure Remote where
  rid : Nat
  who : Asker
  va : Word
  n : Nat
  late : Bool := false
  sent : Nat := 0
  ans : Option (Word × Bool) := none
  port : Option Nat := none
  got : List Word := []
  lost : Bool := false
  key : Option Nat := none
  val : Word := 0
deriving DecidableEq, Repr

/-! ## Translation -/

/-- An access-filter entry of a core (R129): a page of this device with the HOME of its leaf and the permission
for loads and for stores. It holds no translation (R124). -/
structure FilterEntry where
  core : Nat
  ctx : Nat
  page : Nat
  r : Bool
  w : Bool
  home : Nat := 0
deriving DecidableEq, Repr

/-- A memory-side TLB entry (R124): the leaf that maps a 64 KiB page, with its level. -/
structure TlbEntry where
  ctx : Nat
  page : Nat
  level : Nat
  leaf : Word
deriving DecidableEq, Repr

/-- A merge-table entry, or a key in the overflow queue when `open_` is false (R132); `fpc` is the PC of the
first waiting instruction (R133). -/
structure Merge where
  die : Nat
  ctx : Nat
  gen : Nat
  page : Nat
  kind : Nat
  open_ : Bool := true
  fpc : Word := 0
deriving DecidableEq, Repr

/-- A context (R126, R128, R139, R142, R207). -/
structure Ctx where
  n : Nat
  gen : Nat := 0
  root0 : Word := 0
  root1 : Word := 0
  rootH : Word := 0
  keys : BitVec 16 := 0xFFFF
  shard : Word := 0
  frBase : Word := 0
  frCap : Nat := 0
  frHead : Nat := 0
  frTail : Nat := 0
  pasid : Nat := 0
deriving DecidableEq, Repr

/-- A translation held from the host's IOMMU (R208): the bus page, none when it may not be
accessed. After a page response of success what it does not allow is asked for anew (`again`). -/
structure Ats where
  ctx : Nat
  page : Nat
  bus : Option Nat
  w : Bool
  again : Bool := false
deriving DecidableEq, Repr

/-- A SHINV in progress (R148): at its root it belongs to a crew's cohort, elsewhere to a parent
device. `wait` holds the children that have not acknowledged, with the time of the relay. -/
structure Shinv where
  id : Nat
  die : Nat
  tensor : Nat
  ctx : Nat
  root : Option (Nat × Nat × Word)
  parent : Option (Nat × Nat)
  wait : List (Nat × Nat)
  local_ : Bool := false
deriving DecidableEq, Repr

/-! ## Engines -/

/-- A footprint region (R118, R179). -/
structure Region where
  write : Bool
  kind : Nat
  start : Nat
  len : Nat
deriving DecidableEq, Repr

/-- A line of a core's scale cache (R185): its context and number VA / 64, the MMQs that the core had
accepted when it was filled, and its eight words. -/
structure ScaleLine where
  core : Nat
  ctx : Nat
  line : Nat
  mmq : Nat
  words : List Word
deriving DecidableEq, Repr

/-- An item of a core's engine scheduler (R176): a tile task or a job card with what was read at
issue, and how far it has run. `core` is the core whose scheduler holds it. A task has run `pos` steps and
has started when `sub` is 1; a job has written `pos` bytes and read `sub` units, of which `buf` holds the
bytes still to write. `cache` holds words of another device fetched for it, `wait` the address whose page
it waits for, `fail` its cause, failing address and device (R193), `told` that its crew has been given the
trap of a timeout (R201), `tok` the token of a block-table walk whose entry it has loaded, with its place in the pool,
none for a hole (R189). -/
structure Item where
  id : Nat
  core : Nat
  uid : Nat
  idx : Nat
  pc : Word
  task : Bool
  words : List Word
  fp : List Region := []
  sc : List Word := []
  ring : Option Ring := none
  mmq : Nat := 0
  pos : Nat := 0
  sub : Nat := 0
  buf : List Byte := []
  cache : List (Nat × Word) := []
  xto : Bool := false
  wait : Option Word := none
  remote : Option Nat := none
  done : Bool := false
  fail : Option (Nat × Word × Nat) := none
  aborted : Bool := false
  told : Bool := false
  tok : Option (Nat × Option Nat) := none
deriving DecidableEq, Repr

/-- A WDQ answer on its way (R364). -/
structure Wdq where
  id : Nat
  uid : Nat
  idx : Nat
  space : Nat
  off : Nat
deriving DecidableEq, Repr

/-! ## Fabric and outbound records -/

/-- A record in a die's outbound area (R72, R73) with its stream number (R204): held after a drop, or sent by
a port; none while no route leads to its device. -/
structure OutRec where
  id : Nat
  sn : Nat
  die : Nat
  dev : Nat
  tag : Nat
  inst : Nat
  serial : Nat
  r : Record
  held : Bool := false
  granted : Bool := false
  port : Option Nat := none
deriving DecidableEq, Repr

/-- Places set aside for device `src`, in the Loam bank or with `silt` in the Silt ring, or, with `out`, set aside
there for this one (R72). -/
structure Grant where
  id : Nat
  out : Bool := false
  src : Nat
  tag : Nat
  node : Nat
  elem : Nat
  n : Nat
  until_ : Nat
  silt : Bool := false
deriving DecidableEq, Repr

/-- A reservation asked for by another device and not yet granted (R72). -/
structure Ask where
  src : Nat
  tag : Nat
  node : Nat
  elem : Nat
  n : Nat
deriving DecidableEq, Repr

/-- A message that leaves the device: to another device, by a port of its own (12 × die + number) for an access
(R198), to the host, or to a firmware core. An access carries its context and the context's generation
untranslated (R123), one to host memory the PASID and the bus address (R124, R207). -/
inductive Msg where
  | request (dev port rid ctx gen : Nat) (va : Word) (k : ReqKind)
  | hostRequest (pasid rid : Nat) (bus : Nat) (k : ReqKind)
  | answer (dev rid : Nat) (v : Word) (fail : Bool)
  | record (dev die sn tag : Nat) (granted : Bool) (r : Record)
  | ack (dev die sn : Nat)
  | refuse (dev die sn : Nat)
  | drop (dev die sn : Nat)
  | reserve (dev tag node elem n : Nat)
  | grant (dev tag node elem n : Nat)
  | shinv (dev id tensor : Nat)
  | shinvAck (dev id : Nat)
  | watch (dev port rid ctx gen : Nat) (va : Word)
  | pageRequest (w0 w1 w2 : Word)
  | frames (ctx : Nat) (old new_ : Nat)
  | pri (ctx pasid page : Nat)
  | ats (ctx pasid page : Nat)
  | msix (vector : Nat)
  | fence (dev tensor : Nat)
  | report (core : Nat) (what : Nat)
  | spdm (bytes : List Byte)
  | busy (core : Nat)
deriving DecidableEq, Repr

/-- A request of another device, or its watch of a word (R360), being served here (R199), waiting for a
page. -/
structure Served where
  src : Nat
  rid : Nat
  ctx : Nat
  gen : Nat
  va : Word
  k : ReqKind
  watch : Bool := false
deriving DecidableEq, Repr

/-- A watch of a word here held for another device (R360). -/
structure Watch where
  src : Nat
  rid : Nat
  key : Nat
deriving DecidableEq, Repr

/-- A copy-on-write sequence (R140), its COWCOPY job on the copy engine of a core. -/
structure Cow where
  die : Nat
  ctx : Nat
  page : Nat
  old : Nat
  new_ : Nat
  core : Nat := 0
deriving DecidableEq, Repr

/-! ## Host queues and firmware -/

/-- The walker's place in one queue's INDIRECT buffers (R232): address of the next packet and packets
left, innermost first. -/
structure QueuePos where
  qsb : Word
  stack : List (Word × Nat)
deriving DecidableEq, Repr

/-- The walker's visit (R229): the run list and the QSB on which it stands, and the packets it may still
process there. -/
structure Visit where
  list : Nat
  qsb : Word
  left : Nat
deriving DecidableEq, Repr

/-- Configuration and firmware registers (R18, R241, R242). -/
structure Fw where
  boot : Nat := 4
  lock : Bool := false
  stat : Nat := 0
  len : Nat := 0
  devid : Nat := 0
  config : List Word := [0, 0, 0, 0, 0, 0, 0, 0]
  meas : List (List Byte) := []
  spdmSent : Nat := 0
  timeout : Nat := 20
  resTime : Nat := 4
  corrected : Nat := 0
  uncorrected : Nat := 0
  dropped : Nat := 0
  lateResponses : Nat := 0
deriving DecidableEq, Repr

/-- The repair record (R12, R13): failed physical cores (100 × die + number), slices, pseudo-channels and
stacks, in the order in which they were recorded. -/
structure Repair where
  cores : List Nat := []
  slices : List Nat := []
  channels : List Nat := []
  hbm : List Nat := []
deriving DecidableEq, Repr

/-- A fabric port (R204): healthy lanes and trained width. -/
structure Port where
  lanes : List Nat := [0, 1, 2, 3]
  width : Nat := 0
deriving DecidableEq, Repr

/-- A checkpoint in progress (R246): the time at which it was started, the host's bound, and whether step 2 has been
reached. -/
structure Checkpoint where
  on : Bool := false
  bound : Nat := 0
  started : Nat := 0
  reached : Bool := false
deriving DecidableEq, Repr

/-! ## The device -/

/-- Time (R4, R37, R80): cycles, nanoseconds since reset, rounds per die. -/
structure Clock where
  cycle : Nat := 0
  ns : Nat := 0
  rounds : List Nat := [0, 0]
deriving DecidableEq, Repr

/-- The model's own counters (log entry 4): the next cohort uid, access, item and request numbers, the
order of waits, and the current instant of global memory. -/
structure Fresh where
  uid : Nat := 1
  id : Nat := 1
  seq : Nat := 1
  stamp : Nat := 1
  serial : Nat := 1
deriving DecidableEq, Repr

/-- Global memory (R105, R106): the bytes, poisoned lines (R244), and for each write its instant, its
byte and what the byte held before (R109). Accesses on their way. -/
structure Global where
  mem : List Host.Cell := []
  poison : List Nat := []
  hist : List (Nat × Nat × Byte) := []
  loads : List Load := []
  stores : List Store := []
  log : List LogEntry := []
  remote : List Remote := []
deriving DecidableEq, Repr

/-- Translation state (R124 to R149). Lists by die hold die 0 first. `marl` holds the entries of the Marl caches (R143): die,
context and tensor, address, and the eight words of a descriptor or the one of a map entry. `asked` holds the
words (context, VA, who wants it) of R369 that wait for their page, `failed` those whose answer failed and is still to be
reported. `pris` holds the page requests on their way to the host (context, generation, page; R208). `old` holds
(context, page, key, instant) of earlier mappings, latest first, with the instant at which each ended, which L1 may
still show (R131). -/
structure Mmu where
  ctxs : List Ctx := []
  filter : List FilterEntry := []
  tlb : List TlbEntry := []
  merge : List Merge := []
  late : List Nat := [0, 0]
  malformed : List Nat := [0, 0]
  marl : List (Nat × Nat × Word × List Word) := []
  shinvs : List Shinv := []
  ats : List Ats := []
  cows : List Cow := []
  served : List Served := []
  failed : List (Nat × Word × Asker) := []
  asked : List (Nat × Word × Asker) := []
  pris : List (Nat × Nat × Nat) := []
  old : List (Nat × Nat × Nat × Nat) := []
deriving DecidableEq, Repr

/-- Engines (R175 to R195). `wb` holds weight-buffer bytes under core × 524,288 + offset, `wbOwner`
the serial of the launch recorded for granule core × 128 + g. `mmqs` counts the MMQs that each core has
accepted (R185). -/
structure Engines where
  items : List Item := []
  mmqs : SMap Nat := []
  scale : List ScaleLine := []
  wb : SMap Byte := []
  wbOwner : SMap Nat := []
  wdqs : List Wdq := []
deriving DecidableEq, Repr

/-- An offer by its instance slot, node and element. -/
abbrev OfferKey := Nat × Nat × Nat

/-- A reservation of a core, or of a twin pair by its even core (R86). -/
structure Resv where
  core : Nat
  span : Bool
  key : OfferKey
deriving DecidableEq, Repr

/-- The eviction claimant of a die with its target and the cohorts still to evict, the first of them being
saved (R87, R88). -/
structure Claim where
  die : Nat
  key : OfferKey
  target : Nat
  uids : List Nat
deriving DecidableEq, Repr

/-- Scheduling state of the dies (R80 to R88): rotation pointers by die × 8 + priority, reservations, the
offers that wait for one, claims; cores disabled at bring-up (R14); placement stopped (R246). -/
structure Sched where
  rot : SMap Nat := []
  resv : List Resv := []
  asks : List OfferKey := []
  claims : List Claim := []
  disabled : List Nat := []
  stopped : Bool := false
deriving DecidableEq, Repr

/-- The fabric (R72, R197 to R204, R149). `streams` holds the next stream number of each die, `seen` the
stream numbers (device, die, number) enqueued here, `dropped` the streams (device, tag, node, element) of
which a record was dropped and none has yet come again. -/
structure Fabric where
  ports : List Port := []
  routes : SMap Nat := []
  admitted : List Nat := []
  fenced : List Nat := []
  outbound : List OutRec := []
  grants : List Grant := []
  asks : List Ask := []
  streams : SMap Nat := []
  seen : List (Nat × Nat × Nat) := []
  dropped : List (Nat × Nat × Nat × Nat) := []
  watches : List Watch := []
  out : List Msg := []
deriving DecidableEq, Repr

/-- What a checkpoint keeps in the host's safe tier (R246): HBM4E with its poison, the instances with their
queues and counters, their cohorts and crews as saved, the contexts, the side log, the queues' places and what
stands of halts and fault records. -/
structure Snapshot where
  cells : List Host.Cell := []
  poison : List Nat := []
  insts : List Inst := []
  cohorts : List Cohort := []
  crews : List Crew := []
  ctxs : List Ctx := []
  pos : List QueuePos := []
  past : List Past := []
  heads : List Word := []
  serial : Nat := 1
  log : List LogEntry := []
  halted : List (Word × Bool) := []
  faultQ : List (Word × List Word) := []
deriving DecidableEq, Repr

/-- Host interface and firmware (R228 to R248). `stalled` holds the queues whose next packet could not be
processed at their last visit. Mailbox (i, j) under 8 i + j. `pairs` maps the
replaced logical pairs to the spare pairs that serve them (R12). `applied` is the repair record as bring-up
applied it (R13). `faultQ` holds fault
records whose ring word waits for a page answer (R369), `halted` the queues that a malformed packet has halted, with
whether the QSB has been removed since (R238), `launching` the launches whose status word is on its way: queue,
serial, status (R234). -/
structure Host_ where
  heads : List Word := [0, 0, 0, 0, 0, 0, 0, 0]
  wgen : List Nat := [0, 0, 0, 0, 0, 0, 0, 0]
  pos : List QueuePos := []
  visit : Option Visit := none
  stalled : List Word := []
  past : List Past := []
  mail : SMap (List (List Word)) := []
  pairs : List (Nat × Nat) := []
  fw : Fw := {}
  repair : Repair := {}
  applied : Repair := {}
  check : Checkpoint := {}
  tiers : List Snapshot := []
  thermal : List Nat := []
  faultQ : List (Word × List Word) := []
  halted : List (Word × Bool) := []
  launching : List (Word × Nat × Nat) := []
deriving DecidableEq, Repr

/-- What happens next, given as data: a crew issues, a device event, time passes, or an outside agent
(host, firmware) acts. -/
inductive Action where
  /-- Crew `c` of cohort `u` issues its next unit. -/
  | issue (u c : Nat)
  /-- A device event of the opcode table. -/
  | ev (i : Instr)
  /-- Time passes (R4). -/
  | tick (cycles ns : Nat)
  /-- The host, another device or a firmware core writes bytes at a home address (R228, R230, R127). -/
  | write (key : Nat) (data : List Byte)
  /-- The memory-management core sets a context (R126, R128, R139, R142). -/
  | ctx (c : Ctx)
  /-- Firmware keeps run-list head `p` (R229, R230). -/
  | head (p : Nat) (qsb : Word)
  /-- The fabric core writes a route mask (R198). -/
  | route (die dev mask : Nat)
  /-- The fabric core sets the timeout in µs (R200). -/
  | timeout (us : Nat)
  /-- Firmware sets the reservation time in µs (R72). -/
  | resTime (us : Nat)
  /-- The fabric tells this device that device `dev` has been fenced by a parent of its own (R149). -/
  | fence (dev : Nat)
  /-- Firmware core `j` takes the oldest message of mailbox (i, j) (R239). -/
  | receive (i j : Nat)
  /-- The firmware records a failed unit in the repair record (R13): kind 0 core, 1 slice, 2 channel,
  3 stack. -/
  | failed (kind n : Nat)
deriving DecidableEq, Repr

/-- The machine. -/
structure State where
  cur : Nat × Nat := (0, 0)
  crews : List Crew := []
  cohorts : List Cohort := []
  insts : List Inst := []
  mem : Global := {}
  mmu : Mmu := {}
  eng : Engines := {}
  sched : Sched := {}
  fab : Fabric := {}
  host : Host_ := {}
  clk : Clock := {}
  fresh : Fresh := {}
  agenda : List Action := []
deriving DecidableEq, Repr

/-- What stops a run. -/
inductive Fault where
  /-- A unit is executed for a crew that is not resident: no such agent exists (R19). Raised by every
  instruction of a crew when `cur` names none. Safe: `step` never selects such a crew. -/
  | noCrew
deriving DecidableEq, Repr

/-- What the model declines. -/
inductive Refusal where
  /-- The instruction has no meaning in this model yet. Safe. -/
  | notModelled (mnemonic : String)
deriving DecidableEq, Repr

/-- Extend a measurement register with the digest of some bytes (R242). -/
def extendMeas (m bs : List Byte) : List Byte := Sha3.digest (m ++ Sha3.digest bs)

/-- The measurement registers after step 2 of R243: MEAS0 holds the boot ROM, MEAS2 the repair record. -/
def measAtReset (r : Repair) : List (List Byte) :=
  let z : List Byte := List.replicate 32 0
  [extendMeas z Config.bootRom, z, extendMeas z (Config.repairBytes r.cores r.slices r.channels r.hbm), z, z, z, z, z]

/-- The machine right after reset (R243): steps 1 to 3 done, FWSTAT 0, waiting for the image. The
values that the manual does not give are named in log entry 2. -/
def State.reset : State :=
  { fab := { ports := List.replicate 24 {} }
    host := { fw := { meas := measAtReset {} } } }

end Sys2Proof.Machine
end

