-- ==== Sys2Proof/WellFormed.lean ====
section
/-! DEFINITION. The type, size and token codes (R257, R258, R260) and what a well-formed instruction
is: the limits that R251 to R261 and the reference entries put on its fields. The decoder answers
well-formed instructions only, and the encoder takes them. -/

namespace Sys2Proof

/-- The code of a type (R257). -/
def Ty.code : Ty → Nat
  | .s8 => 0 | .s16 => 1 | .s32 => 2 | .s64 => 3 | .n8 => 4 | .n16 => 5 | .n32 => 6 | .n64 => 7
  | .s4 => 8 | .n4 => 9 | .f32 => 10 | .f16 => 11 | .bf16 => 12 | .e4m3 => 13 | .e5m2 => 14
  | .e2m1s => 15

/-- The type of a 4-bit code (R257). -/
def Ty.ofCode : Nat → Ty
  | 0 => .s8 | 1 => .s16 | 2 => .s32 | 3 => .s64 | 4 => .n8 | 5 => .n16 | 6 => .n32 | 7 => .n64
  | 8 => .s4 | 9 => .n4 | 10 => .f32 | 11 => .f16 | 12 => .bf16 | 13 => .e4m3 | 14 => .e5m2
  | _ => .e2m1s

/-- The element width in bits (R257). -/
def Ty.width : Ty → Nat
  | .s8 | .n8 | .e4m3 | .e5m2 => 8
  | .s16 | .n16 | .f16 | .bf16 => 16
  | .s32 | .n32 | .f32 => 32
  | .s64 | .n64 => 64
  | .s4 | .n4 | .e2m1s => 4

/-- Elements in a 64-bit lane (R257). -/
def Ty.count (t : Ty) : Nat := 64 / t.width

/-- The integer types, codes 0x0 to 0x9 (R270). -/
def Ty.isInt : Ty → Bool
  | .s8 | .s16 | .s32 | .s64 | .n8 | .n16 | .n32 | .n64 | .s4 | .n4 => true
  | _ => false

/-- The signed integer types (R257). -/
def Ty.isSigned : Ty → Bool
  | .s8 | .s16 | .s32 | .s64 | .s4 => true
  | _ => false

/-- The three floating-point types of arithmetic, 0xA to 0xC (R274). -/
def Ty.isArith : Ty → Bool
  | .f32 | .f16 | .bf16 => true
  | _ => false

/-- Significand bits of a floating-point format, leading bit included (R150, R157). -/
def Ty.sigBits : Ty → Nat
  | .f32 => 24 | .f16 => 11 | .bf16 => 8 | .e4m3 => 4 | .e5m2 => 3 | .e2m1s => 2
  | _ => 0

/-- The exponents of the largest finite value and of the smallest subnormal (R150), as offsets from
-200 so that they are natural numbers. -/
def Ty.range : Ty → Nat × Nat
  | .f32 => (327, 51) | .f16 => (215, 176) | .bf16 => (327, 67) | .e4m3 => (208, 191)
  | .e5m2 => (215, 184) | .e2m1s => (202, 199)
  | _ => (0, 0)

/-- Magnitude bits of an integer type (R157). -/
def Ty.magBits (t : Ty) : Nat := if t.isSigned then t.width - 1 else t.width

/-- Whether stochastic rounding is legal on VCVT.dst.src (R157, log entry 12). -/
def srLegal (dst src : Ty) : Bool :=
  if src.isInt then !dst.isInt && dst.sigBits < src.magBits
  else if dst.isInt then true
  else dst.sigBits < src.sigBits || dst.range.1 < src.range.1

/-- Whether XP.SAT is legal on VCVT.dst.src (R339). -/
def cvtSatLegal (dst src : Ty) : Bool := (dst.isInt && src.isInt) || dst = .e5m2

/-- The size code (R258). -/
def Size.code : Size → Nat
  | .b8 => 0 | .b16 => 1 | .b32 => 2 | .b64 => 3 | .pair => 4 | .quad => 5

/-- The size of a code 0 to 5 (R258). -/
def Size.ofCode : Nat → Size
  | 0 => .b8 | 1 => .b16 | 2 => .b32 | 3 => .b64 | 4 => .pair | _ => .quad

/-- Bytes of one lane's access (R258). -/
def Size.bytes : Size → Nat
  | .b8 => 1 | .b16 => 2 | .b32 => 4 | .b64 => 8 | .pair => 16 | .quad => 32

/-- Data registers of one access (R258). -/
def Size.regs : Size → Nat
  | .pair => 2 | .quad => 4 | _ => 1

/-- The token of a 4-bit code (R260). -/
def Tok.ofCode : Nat → Tok
  | 0 => .fin | 1 => .i0 | 2 => .i1 | 3 => .i2 | 4 => .i3 | 5 => .add | 6 => .sub | 7 => .mul
  | 8 => .fma | 9 => .min | 10 => .max | 11 => .neg | 12 => .abs | 13 => .exp2 | 14 => .rcp
  | _ => .dup

/-- The code of a token (R260). -/
def Tok.code : Tok → Nat
  | .fin => 0 | .i0 => 1 | .i1 => 2 | .i2 => 3 | .i3 => 4 | .add => 5 | .sub => 6 | .mul => 7
  | .fma => 8 | .min => 9 | .max => 10 | .neg => 11 | .abs => 12 | .exp2 => 13 | .rcp => 14
  | .dup => 15

/-- Values a token pops and pushes (R260). -/
def Tok.effect : Tok → Nat × Nat
  | .fin => (0, 0)
  | .i0 | .i1 | .i2 | .i3 => (0, 1)
  | .add | .sub | .mul | .min | .max => (2, 1)
  | .fma => (3, 1)
  | .neg | .abs | .exp2 | .rcp => (1, 1)
  | .dup => (1, 2)

/-- The list check of R261 from stack depth `n`: no pop from an empty stack, no push onto 4 values,
END only before END, exactly one value left. -/
def exprOk : Nat → List Tok → Bool
  | n, [] => n = 1
  | n, .fin :: r => n = 1 && r.all (· == .fin)
  | n, t :: r => t.effect.1 ≤ n && n - t.effect.1 + t.effect.2 ≤ 4
      && exprOk (n - t.effect.1 + t.effect.2) r

/-- Token `t` names the input register of position `k`. -/
def Tok.names (k : Nat) (t : Tok) : Bool := t.code == k + 1

/-- A predication that R256 accepts: NEG needs a predicate. -/
def Pred.wf (q : Pred) : Bool := q.p < 16 && (!q.neg || q.p != 0)

/-- A scalar register (R254). -/
def sOk (n : Nat) : Bool := n < 192
/-- A vector register field with its high bit (R254). -/
def vOk (n : Nat) : Bool := n < 256
/-- A predicate register (R254). -/
def pOk (n : Nat) : Bool := n < 16

/-- Operand B of format V (R252). -/
def VOp.wf : VOp → Bool
  | .v n => vOk n
  | .s n => sOk n

/-- The immediate of format SI after sign extension from bit 35 (R253). -/
def immOk (i : Int) : Bool := -34359738368 ≤ i && i < 34359738368
/-- imm7 (R253). -/
def imm7Ok (i : Int) : Bool := -64 ≤ i && i < 64
/-- OFF14 (R253). -/
def offOk (i : Int) : Bool := -8192 ≤ i && i < 8192
/-- A SCOPE code (R255). -/
def scopeOk (n : Nat) : Bool := n ≤ 4
/-- A rounding code other than SR (R255, R157). -/
def rndOk (n : Nat) : Bool := n ≤ 5

/-- The operands of a vector instruction of format V. -/
def wfV (d a : Nat) (b : VOp) (q : Pred) : Bool := vOk d && vOk a && b.wf && q.wf
/-- The operands of a two-operand vector instruction. -/
def wfV2 (d a : Nat) (q : Pred) : Bool := vOk d && vOk a && q.wf
/-- The operands of format M. -/
def wfM (d a b : Nat) (q : Pred) : Bool := vOk d && vOk a && sOk b && q.wf
/-- Three scalar registers. -/
def wfS (d a b : Nat) : Bool := sOk d && sOk a && sOk b
/-- Operands of VCMP (R273, R337). -/
def wfCmp (d a : Nat) (b : VOp) (t : Ty) (e : Nat) (q : Pred) : Bool :=
  pOk d && vOk a && b.wf && q.wf && t != .e2m1s && e < t.count
/-- Operands of SLD and SST (R323). -/
def wfSm (d a : Nat) (off : Int) (z : Size) (scope : Nat) : Bool :=
  sOk d && d + z.regs ≤ 192 && sOk a && imm7Ok off && scopeOk scope
/-- Operands of VRED and VSCAN (R352). -/
def wfRed (op : RedOp) (d a : Nat) (t : Ty) (q : Pred) (rnd : Nat) (sat : Bool) : Bool :=
  wfV2 d a q && (t.isInt || t.isArith) && rndOk rnd && (!sat || (t.isInt && op = .add))

/-- A well-formed instruction: its fields are within the limits of R251 to R261 and of its entry.
A device event has no encoding, so nothing is asked of it. -/
def Instr.wf : Instr → Bool
  | .sadd d a b | .ssub d a b | .smul d a b | .smulh d a b | .smulhN d a b | .sand d a b
  | .sor d a b | .sxor d a b | .sandn d a b | .sshl d a b | .sshr d a b | .ssra d a b
  | .smin d a b | .smax d a b | .sminN d a b | .smaxN d a b | .sbfx d a b | .sbfxN d a b
  | .sbfi d a b | .sset _ d a b | .waita _ d a b | .waitaSp _ d a b | .shinv d a b
  | .depsetArm d a b => wfS d a b
  | .saddi d a i | .sandi d a i | .sori d a i | .sxori d a i => sOk d && sOk a && immOk i
  | .sshlImm d a n | .sshrImm d a n | .ssraImm d a n => sOk d && sOk a && n < 64
  | .smov d a | .sclz d a | .spopc d a | .depsetDec d a => sOk d && sOk a
  | .ssel d a b q => wfS d a b && q.wf
  | .smovi d i | .smoviHi d i | .sysrd d i => sOk d && immOk i
  | .syswr a i => sOk a && immOk i
  | .sld d a off z sc _ | .sst d a off z sc _ => wfSm d a off z sc
  | .bra off | .call off => offOk off
  | .bcc _ r off => r < 128 && offOk off
  | .bccPred _ p off => pOk p && offOk off
  | .ret | .xmpop | .xmelse | .tret | .brk | .nop | .yield | .exit | .drain | .waitpred
  | .hintsucc => true
  | .jmpi a | .rngsetSeed a | .rngsetCtr a | .trap a | .wdq a | .mmq a | .cpq a => sOk a
  | .pand d a b | .por d a b | .pxor d a b => pOk d && pOk a && pOk b
  | .pnot d a => pOk d && pOk a
  | .pcnt d a | .pcntAny d a | .pcntAll d a => sOk d && pOk a
  | .xmset p | .xmpush p => pOk p
  | .wbase n | .regrel n | .regclm n => immOk n
  | .rnggetCtr d | .rnggetSeed d => sOk d
  | .vadd d a b t q _ | .vsub d a b t q _ | .vmul d a b t q _ | .vmad d a b t q _ =>
      wfV d a b q && t.isInt
  | .vaddi d a i t q _ => wfV2 d a q && imm7Ok i && t.isInt
  | .vmulh d a b t q | .vdiv d a b t q | .vrem d a b t q | .vshl d a b t q | .vshr d a b t q
  | .vsra d a b t q | .vmin d a b t q | .vmax d a b t q => wfV d a b q && t.isInt
  | .vand d a b q | .vor d a b q | .vxor d a b q => wfV d a b q
  | .vnot d a q | .vmov d a q => wfV2 d a q
  | .vcmpEq d a b t e q | .vcmpNe d a b t e q | .vcmpLt d a b t e q | .vcmpLe d a b t e q =>
      wfCmp d a b t e q
  | .vcmpUn d a b t e q => wfCmp d a b t e q && !t.isInt
  | .vsel d a b p q => wfV d a b q && pOk p
  | .vdp4 d a b _ _ _ q | .vdp8 d a b _ _ _ q => vOk d && vOk a && vOk b && q.wf
  | .vclz d a t q | .vpopc d a t q => wfV2 d a q && t.isInt
  | .vmovBcast d a q => vOk d && sOk a && q.wf
  | .vmovLane d q => vOk d && q.wf
  | .vmovi d i t q => vOk d && imm7Ok i && t.isInt && q.wf
  | .vfadd d a b t q r | .vfsub d a b t q r | .vfmul d a b t q r | .vfma d a b t q r
  | .vfms d a b t q r => wfV d a b q && t.isArith && rndOk r
  | .vfmin d a b t q | .vfmax d a b t q => wfV d a b q && t.isArith
  | .vcvt d a dst src q r sat => wfV2 d a q && dst != src
      && (rndOk r || (r == 6 && srLegal dst src)) && (!sat || cvtSatLegal dst src)
  | .vsf d a _ q => wfV2 d a q
  | .vexpr d i0 i1 i2 i3 t toks _ _ => d < 128 && i0 < 128 && i1 < 128 && i2 < 128 && i3 < 128
      && (t == .f32 || t == .bf16) && toks.length == 12 && exprOk 0 toks
  | .vhad d a _ t q r => wfV2 d a q && (t == .f32 || t == .bf16) && rndOk r
  | .vqnt d a dst src had q r => wfV2 d a q
      && (dst == .e2m1s || dst == .e4m3 || dst == .e5m2 || dst == .s8)
      && (src == .f32 || src == .bf16) && had < 3 && r ≤ 6
  | .vshfl d a b t q => wfV d a b q && t != .e2m1s
  | .vvote _ d p b => sOk d && pOk p && sOk b
  | .vred op d a t q r sat | .vscan op d a t q r sat => wfRed op d a t q r sat
  | .vtopk d a _ k t q => wfV2 d a q && 1 ≤ k && k ≤ 16 && t.isArith
  | .vrng d t q => vOk d && t.isInt && q.wf
  | .trd d _ tile b aux t q r => vOk d && tile < 64 && sOk b && aux < 256 && q.wf
      && (t == .s32 || t.isArith) && rndOk r && (r == 0 || t == .f16 || t == .bf16)
  | .twr d _ tile b aux t q => vOk d && tile < 64 && sOk b && aux < 256 && q.wf
      && (t == .s32 || t.isArith)
  | .ttest d _ tile b aux q => vOk d && tile < 64 && sOk b && aux < 256 && q.wf
  | .tzero tile => tile < 64
  | .vld d a b _ q sc _ | .vst d a b _ q sc _ => wfM d a b q && scopeOk sc
  | .vldLp d a b _ q | .vstLp d a b _ q => wfM d a b q
  | .vatom32 _ d a b q sc _ _ => wfM d a b q && scopeOk sc
  | .vatom64 op d a b q sc _ _ => wfM d a b q && scopeOk sc && op != .fadd
  | .tld d a b e q _ | .tst d a b e q _ => wfM d a b q && e < 4
  | .spld d a b _ q | .spst d a b _ q => wfM d a b q
  | .splds d a b q | .spldSt d a b q | .spstf d a b q => wfM d a b q
  | .spset _ a b q => vOk a && sOk b && q.wf
  | .phase sc | .phaseRel sc | .phaseAcq sc => scopeOk sc
  | .emit d a b n q => sOk d && vOk a && b.wf && n ≤ 6 && (n != 0 || a == 0) && q.wf
  | .emitS d a b n => sOk d && sOk a && sOk b && n ≤ 6 && (if n = 0 then a == 0 else a + n ≤ 192)
  | .recldV d w c q => vOk d && 1 ≤ c && w + c ≤ 8 && q.wf
  | .recldS d w c => sOk d && 1 ≤ c && w + c ≤ 8 && d + c ≤ 192
  | .bar a b | .barArv a b | .barWt a b => sOk a && b < 16
  | .freezePointReached _ _ | .compactorMoveDone _ _ | .placementRound _ | .nodeAges _ _
  | .reservationTake _ _ _ | .lingerExpiry _ _ _ | .evictionClaim _ | .evictionSaveComplete _
  | .runlimitExpiry _ | .graphdeadlock _ | .instanceComplete _ | .emitWake _ _
  | .counterPendingEnqueue _ _ | .loamSpill _ _ | .loamRefill _ _ _
  | .remoteRecordArrival _ _ _ _ _ _ | .remoteRecordRefused _ | .dropNotice _
  | .reservationRequest _ _ _ _ _ | .reservationGrant _ _ _ _ _ | .reservationExpiry _
  | .remoteRecordAck _ | .wdqAnswer _ | .taskMma _ _ | .taskMmaSc _ _ | .taskMmaInt _ _
  | .taskRingdef _ _ | .taskTclear _ _ | .matrixStep _ _ | .jobCopy _ _ _ | .jobCopy2d _ _ _
  | .jobGatherbt _ _ _ | .jobWiden _ _ _ | .jobFillwb _ _ _ | .itemRetire _ _ | .itemFailure _ _
  | .cowCopyDone _ _ _ | .translationOutcome _ _ _ _ | .pageAnswer _ _ _ _ _ | .shootdown _ _ _
  | .contextKill _ | .loadReturn _ _ | .storePerformed _ _ | .remoteRequest _ _ _ _ _ _
  | .remoteResponse _ _ _ | .remoteTimeout _ | .waitaWatchAnswer _ _ | .waitaWatchRenew _
  | .shinvRelay _ _ _ _ | .shinvAck _ _ | .shinvFence _ _ _ | .atsTranslationResponse _ _ _ _
  | .atsInvalidation _ _ | .priResponse _ _ _ | .laneFailure _ _ | .deviceAdmit _
  | .mailboxSend _ _ _ | .uncorrectableError _ | .correctedError | .thermalLimit _ | .reset
  | .firmwareVerifyDone _ _ _ | .fwlockWrite _ | .loadWindowWrite _ _ | .registerWrite _ _
  | .getVersion | .getCapabilities | .negotiateAlgorithms | .getDigests | .getCertificate
  | .challenge _ | .getMeasurements _ | .walkerVisit _ | .packetNop _ | .graphLaunch _
  | .writeValue _ | .writeValueDone _ | .waitValue _ | .indirect _ | .checkpointStart _
  | .checkpointQuiesced | .checkpointTimeout | .checkpointRestore _ | .waitaWatch _ _ _ _ _
  | .wakeConditionRecheck _ _ => true

/-- The rows of the opcode table that have no word: events of the device. -/
def Instr.isEvent : Instr → Bool
  | .freezePointReached _ _ | .compactorMoveDone _ _ | .placementRound _ | .nodeAges _ _
  | .reservationTake _ _ _ | .lingerExpiry _ _ _ | .evictionClaim _ | .evictionSaveComplete _
  | .runlimitExpiry _ | .graphdeadlock _ | .instanceComplete _ | .emitWake _ _
  | .counterPendingEnqueue _ _ | .loamSpill _ _ | .loamRefill _ _ _
  | .remoteRecordArrival _ _ _ _ _ _ | .remoteRecordRefused _ | .dropNotice _
  | .reservationRequest _ _ _ _ _ | .reservationGrant _ _ _ _ _ | .reservationExpiry _
  | .remoteRecordAck _ | .wdqAnswer _ | .taskMma _ _ | .taskMmaSc _ _ | .taskMmaInt _ _
  | .taskRingdef _ _ | .taskTclear _ _ | .matrixStep _ _ | .jobCopy _ _ _ | .jobCopy2d _ _ _
  | .jobGatherbt _ _ _ | .jobWiden _ _ _ | .jobFillwb _ _ _ | .itemRetire _ _ | .itemFailure _ _
  | .cowCopyDone _ _ _ | .translationOutcome _ _ _ _ | .pageAnswer _ _ _ _ _ | .shootdown _ _ _
  | .contextKill _ | .loadReturn _ _ | .storePerformed _ _ | .remoteRequest _ _ _ _ _ _
  | .remoteResponse _ _ _ | .remoteTimeout _ | .waitaWatchAnswer _ _ | .waitaWatchRenew _
  | .shinvRelay _ _ _ _ | .shinvAck _ _ | .shinvFence _ _ _ | .atsTranslationResponse _ _ _ _
  | .atsInvalidation _ _ | .priResponse _ _ _ | .laneFailure _ _ | .deviceAdmit _
  | .mailboxSend _ _ _ | .uncorrectableError _ | .correctedError | .thermalLimit _ | .reset
  | .firmwareVerifyDone _ _ _ | .fwlockWrite _ | .loadWindowWrite _ _ | .registerWrite _ _
  | .getVersion | .getCapabilities | .negotiateAlgorithms | .getDigests | .getCertificate
  | .challenge _ | .getMeasurements _ | .walkerVisit _ | .packetNop _ | .graphLaunch _
  | .writeValue _ | .writeValueDone _ | .waitValue _ | .indirect _ | .checkpointStart _
  | .checkpointQuiesced | .checkpointTimeout | .checkpointRestore _ | .waitaWatch _ _ _ _ _
  | .wakeConditionRecheck _ _ => true
  | _ => false

end Sys2Proof
end

