-- ==== Sys2Proof/Machine/Basic.lean ====
section
/-! DEFINITION. Maps in canonical form, the lists of crews, cohorts and instances, and the reads and
writes of a crew's registers (R19 to R31, R37 to R40). -/

namespace Sys2Proof

/-- What a key holds; `z` for a key that is not listed. -/
def SMap.get {α : Type} (z : α) : SMap α → Nat → α
  | [], _ => z
  | (k', v) :: r, k => if k' = k then v else SMap.get z r k

/-- Without the entries of one key. -/
def SMap.del {α : Type} (m : SMap α) (k : Nat) : SMap α := m.filter (fun e => e.1 != k)

/-- Write a key, keeping the canonical form: rising keys, no entry equal to `z`. -/
def SMap.set {α : Type} [DecidableEq α] (z : α) : SMap α → Nat → α → SMap α
  | [], k, v => if v = z then [] else [(k, v)]
  | (k', v') :: r, k, v =>
    if k < k' then (if v = z then (k', v') :: SMap.del r k else (k, v) :: (k', v') :: SMap.del r k)
    else if k = k' then SMap.set z r k v
    else (k', v') :: SMap.set z r k v

/-- Keys are at least `lo`, strictly rising, and no entry equals `z`. -/
def SMap.wfFrom {α : Type} [DecidableEq α] (z : α) : Nat → SMap α → Bool
  | _, [] => true
  | lo, (k, v) :: r => decide (lo ≤ k) && decide (v ≠ z) && SMap.wfFrom z (k + 1) r

/-- The canonical form. -/
def SMap.wf {α : Type} [DecidableEq α] (z : α) (m : SMap α) : Bool := SMap.wfFrom z 0 m

/-- Keep the entries whose key satisfies `p`. -/
def SMap.keep {α : Type} (p : Nat → Bool) (m : SMap α) : SMap α := m.filter (fun e => p e.1)

/-- Bit `i` of a mask. -/
def mbit (m : Mask) (i : Nat) : Bool := m.getLsbD i

/-- The 32 lane numbers in ascending order. -/
def lanes : List Nat := List.range 32

/-- The active lanes of a mask in ascending order (R24). -/
def activeLanes (m : Mask) : List Nat := lanes.filter (mbit m)

/-- The mask of a list of lanes. -/
def maskOf (l : List Nat) : Mask := l.foldl (fun m i => m ||| (1#32 <<< i)) 0

/-- The number of set bits. -/
def popc (n : Nat) : Nat → Nat
  | 0 => 0
  | k + 1 => popc (n / 2) k + n % 2

/-- Insert before the first element that it is not above, by `le`. -/
def insertBy {α : Type} (le : α → α → Bool) (x : α) : List α → List α
  | [] => [x]
  | y :: r => if le x y then x :: y :: r else y :: insertBy le x r

/-- Sort by `le`, keeping the order of equals. -/
def sortBy {α : Type} (le : α → α → Bool) (l : List α) : List α := l.foldr (insertBy le) []

/-- Replace position `i` of a list. -/
def setAt {α : Type} (l : List α) (i : Nat) (v : α) : List α := l.set i v

namespace Machine

/-! ## Crews, cohorts, instances -/

/-- The crew `i` of cohort `u`. -/
def State.crew? (s : State) (u i : Nat) : Option Crew :=
  s.crews.find? (fun c => c.uid == u && c.idx == i)

/-- The cohort `u`. -/
def State.cohort? (s : State) (u : Nat) : Option Cohort := s.cohorts.find? (fun h => h.uid == u)

/-- The instance in slot `i`. -/
def State.inst? (s : State) (i : Nat) : Option Inst := s.insts.find? (fun a => a.slot == i)

/-- Change one crew. -/
def State.modCrew (s : State) (u i : Nat) (f : Crew → Crew) : State :=
  { s with crews := s.crews.map (fun c => if c.uid == u && c.idx == i then f c else c) }

/-- Store a crew back under its own numbers. -/
def State.putCrew (s : State) (c : Crew) : State := s.modCrew c.uid c.idx (fun _ => c)

/-- Change one cohort. -/
def State.modCohort (s : State) (u : Nat) (f : Cohort → Cohort) : State :=
  { s with cohorts := s.cohorts.map (fun h => if h.uid == u then f h else h) }

/-- Change one instance. -/
def State.modInst (s : State) (i : Nat) (f : Inst → Inst) : State :=
  { s with insts := s.insts.map (fun a => if a.slot == i then f a else a) }

/-- The crews of a cohort in index order. -/
def State.crewsOf (s : State) (u : Nat) : List Crew := s.crews.filter (fun c => c.uid == u)

/-- Change every crew of a cohort. -/
def State.modCrews (s : State) (u : Nat) (f : Crew → Crew) : State :=
  { s with crews := s.crews.map (fun c => if c.uid == u then f c else c) }

/-- The descriptor of a cohort's node (R45). -/
def State.nodeOf (s : State) (h : Cohort) : Node :=
  match s.inst? h.inst with
  | some a => a.nodes.getD h.node {}
  | none => {}

/-- The logical core a crew runs on (R20): crews from ⌈n/2⌉ of a spanning cohort are on the odd core. -/
def Cohort.coreOf (h : Cohort) (idx : Nat) : Nat :=
  if h.sh.span && decide ((h.sh.ncrew + 1) / 2 ≤ idx) then h.sh.core + 1 else h.sh.core

/-- The cohort has done what a replay cannot undo (R245). -/
def Cohort.affect (h : Cohort) : Cohort := { h with effects := true }

/-- 1 for a crew on the odd core of a spanning cohort: the side whose tiles and rings it names. -/
def Cohort.side (h : Cohort) (idx : Nat) : Nat := h.coreOf idx - h.sh.core

/-- The die of a logical core (R8). -/
def dieOf (core : Nat) : Nat := core / 96

/-- This device's number (R18). -/
def State.devid (s : State) : Nat := s.host.fw.devid

/-- The context of a number, if firmware has set it (R126). -/
def State.ctx? (s : State) (n : Nat) : Option Ctx := s.mmu.ctxs.find? (fun c => c.n == n)

/-- Take the next wait order number (R35, R57, R100). -/
def State.bumpSeq (s : State) : State := { s with fresh := { s.fresh with seq := s.fresh.seq + 1 } }

/-- Take the next number of an access, item, record or request. -/
def State.bumpId (s : State) : State := { s with fresh := { s.fresh with id := s.fresh.id + 1 } }

/-- Send a message out of the device or to a firmware core. -/
def State.send (s : State) (m : Msg) : State := { s with fab := { s.fab with out := s.fab.out ++ [m] } }

/-! ## Registers of a crew -/

/-- Read a scalar register; s0 reads as zero (R29). -/
def Crew.sr (c : Crew) (n : Nat) : Word := if n = 0 then 0 else SMap.get 0 c.r.s n

/-- Write a scalar register; a write to s0 is discarded (R29). -/
def Crew.setS (c : Crew) (n : Nat) (v : Word) : Crew :=
  if n = 0 then c else { c with r := { c.r with s := SMap.set 0 c.r.s n v } }

/-- Read a predicate; p0 reads as all ones (R25). -/
def Crew.pr (c : Crew) (n : Nat) : Mask := if n = 0 then Mask.all else SMap.get 0 c.r.p n

/-- Write a predicate; a write to p0 is discarded (R25). -/
def Crew.setP (c : Crew) (n : Nat) (v : Mask) : Crew :=
  if n = 0 then c else { c with r := { c.r with p := SMap.set 0 c.r.p n v } }

/-- The crew-linear index of a vector operand (R28); `f` is the field with its high bit. -/
def Crew.vix (c : Crew) (f : Nat) : Nat := 8 * c.g.wbase + f

/-- `n` vector registers from field `f` lie within the allocation (R28, R254). -/
def Crew.vOk (c : Crew) (f n : Nat) : Bool := decide (c.vix f + n ≤ c.size)

/-- Read one lane of a vector register. -/
def Crew.vl (c : Crew) (f lane : Nat) : Word := SMap.get 0 c.r.v (32 * c.vix f + lane)

/-- Write one lane of a vector register. -/
def Crew.setV (c : Crew) (f lane : Nat) (v : Word) : Crew :=
  { c with r := { c.r with v := SMap.set 0 c.r.v (32 * c.vix f + lane) v } }

/-- Write the lanes of a list. -/
def Crew.setVs (c : Crew) (f : Nat) : List (Nat × Word) → Crew
  | [] => c
  | (l, v) :: r => Crew.setVs (c.setV f l v) f r

/-- Operand B of format V in one lane: a vector lane, or the scalar itself (R252). -/
def Crew.bl (c : Crew) (b : VOp) (lane : Nat) : Word :=
  match b with
  | .v n => c.vl n lane
  | .s n => c.sr n

/-- Operand B of format V lies within the allocation (R28). -/
def Crew.bOk (c : Crew) : VOp → Bool
  | .v n => c.vOk n 1
  | .s _ => true

/-- The effective mask (R24). -/
def Crew.em (c : Crew) (q : Pred) : Mask :=
  let p := if q.p = 0 then Mask.all else if q.neg then ~~~(c.pr q.p) else c.pr q.p
  c.m.xm &&& p

/-- Write xm: every write is ANDed with om (R24). -/
def Crew.setXm (c : Crew) (v : Mask) : Crew := { c with m := { c.m with xm := v &&& c.m.om } }

/-- A flag mask NFL: 0 IV, 1 DZ, 2 OF, 3 UF, 4 NX, 5 IO, 6 SAT (R37). -/
def Crew.nfl (c : Crew) (k : Nat) : Mask := SMap.get 0 c.g.nfl k

/-- Set the program counter. -/
def Crew.setPc (c : Crew) (pc : Word) : Crew := { c with r := { c.r with pc := pc } }

/-- The address of the word after the unit being issued (R250). -/
def Crew.nextPc (c : Crew) : Word := c.r.pc + BitVec.ofNat 64 c.r.ulen

/-- The address of the unit's last word, the branch word of R253. -/
def Crew.wordPc (c : Crew) : Word := c.nextPc - 4

/-- The rounding mode in force (R157): the XP field, else CCR.RMODE; 0 and 1 are RNE. -/
def Crew.rmode (c : Crew) (rnd : Nat) : Nat :=
  let m := if rnd = 0 then (c.g.ccr.toNat % 8) else rnd
  if m = 0 then 1 else m

/-- CCR.FTZ (R38). -/
def Crew.ftz (c : Crew) : Bool := c.g.ccr.getLsbD 3

/-- CCR.TRAPEN.XTO (R38). -/
def Crew.trapXto (c : Crew) : Bool := c.g.ccr.getLsbD 10

/-- Set a remote-access flag of XSR in cycle `now`; XDEV is captured while all three are clear (R39), the lowest
device of those that set flags in that cycle (R201). 0 XTO, 1 XSTO, 2 XAU. -/
def Crew.setXsr (c : Crew) (now bit dev : Nat) : Crew :=
  { c with g := { c.g with
      xsr := if c.g.xsr / 2 ^ bit % 2 = 1 then c.g.xsr else c.g.xsr + 2 ^ bit
      xdev := if c.g.xsr = 0 then dev else if c.g.xat = now then min c.g.xdev dev else c.g.xdev
      xat := if c.g.xsr = 0 then now else c.g.xat } }

/-- Whether the crew waits at a blocking point (R42). -/
def Crew.blocked (c : Crew) : Bool := c.w.kind != .none

/-- The crew has executed EXIT and runs no handler: it issues no more (R306, R227). -/
def Crew.gone (c : Crew) : Bool := c.g.exited && !c.g.hnd

/-- End the wait and the unit's progress. -/
def Crew.unwait (c : Crew) : Crew :=
  { c with w := {}, x := { c.x with xout := [], xwait := [], ibuf := [] } }

/-- A unit has issued and is over: its progress ends, and one within the skid is counted (R214). -/
def Crew.issued (c : Crew) : Crew :=
  { c.unwait with g := { c.g with skid := if c.g.stopping then c.g.skid + 1 else c.g.skid } }

/-- A wait is abandoned (R214); lanes already done keep their results. -/
def Crew.abandon (c : Crew) : Crew := { c with w := { c.w with kind := .none, pages := [] } }

/-- Begin or keep a wait; the order number and the cycle are taken when the wait begins. -/
def State.waitOn (s : State) (c : Crew) (k : Wait) : State :=
  if c.w.kind = .none then
    ({ s with fresh := { s.fresh with seq := s.fresh.seq + 1 } }).putCrew
      { c with w := { c.w with kind := k, seq := s.fresh.seq, at_ := s.clk.cycle } }
  else s.putCrew { c with w := { c.w with kind := k } }

/-- Registers in the allocation below `SIZE`, for the drops of R34. -/
def Crew.dropAbove (c : Crew) (size : Nat) : Crew :=
  { c with r := { c.r with v := c.r.v.keep (fun k => k < 32 * size) }, size := size }

end Machine
end Sys2Proof
end

