-- ==== Sys2Proof/Machine/Operands.lean ====
section
/-! DEFINITION. Operand forms: elements of a lane (R27, R155), two's complement, immediates as elements
(R253), per-lane addresses (R276), the generator's draw (R173). -/

namespace Sys2Proof.Machine

/-- Element `j` of width `w` of a lane (R27). -/
def elem (w : Nat) (x : Word) (j : Nat) : Nat := x.toNat / 2 ^ (w * j) % 2 ^ w

/-- A lane from its elements, element 0 in the low bits (R27). -/
def packLane (w : Nat) (l : List Nat) : Word :=
  BitVec.ofNat 64 (l.foldr (fun e acc => e % 2 ^ w + acc * 2 ^ w) 0)

/-- A `w`-bit number read in two's complement. -/
def toSigned (w n : Nat) : Int := if n < 2 ^ (w - 1) then (n : Int) else (n : Int) - (2 ^ w : Nat)

/-- The low `w` bits of an integer. -/
def wrapTo (w : Nat) (x : Int) : Nat := (x % (2 ^ w : Nat)).toNat

/-- An element read as its integer type (R155). -/
def readInt (t : Ty) (n : Nat) : Int := if t.isSigned then toSigned t.width n else (n : Int)

/-- Smallest and largest value of an integer type (R155). -/
def minInt (t : Ty) : Int := if t.isSigned then -(2 ^ (t.width - 1) : Nat) else 0
def maxInt (t : Ty) : Int := if t.isSigned then (2 ^ (t.width - 1) : Nat) - 1 else (2 ^ t.width : Nat) - 1

/-- Clamp to the range of an integer type. -/
def clampInt (t : Ty) (x : Int) : Int := max (minInt t) (min (maxInt t) x)

/-- Element `j` of operand B (R333): under BS every element is s[B][w − 1 : 0]. -/
def bElem (c : Crew) (b : VOp) (w lane j : Nat) : Nat :=
  match b with
  | .v n => elem w (c.vl n lane) j
  | .s n => (c.sr n).toNat % 2 ^ w

/-- The immediate as an element (R253). -/
def immElem (w : Nat) (i : Int) : Nat := wrapTo w i

/-- The 64-bit value of a sign-extended immediate (R253). -/
def immWord (i : Int) : Word := BitVec.ofInt 64 i

/-- A lane's address or offset: s[B] + vA.lane(l) mod 2^64 (R276). -/
def laneAddr (c : Crew) (a b lane : Nat) : Word := c.sr b + c.vl a lane

/-- Alignment of an access in bytes (R98, R347). -/
def aligned (z : Size) (a : Word) : Bool := a.toNat % z.bytes == 0

/-- Low bytes of a word (R276). -/
def lowBytes (n : Nat) (w : Word) : Word := BitVec.ofNat 64 (w.toNat % 2 ^ (8 * n))

/-- The draw H(seed, c, l) (R173). -/
def draw (seed ctr : Word) (lane : Nat) : Word :=
  let x0 := seed ^^^ (ctr * 0x9E3779B97F4A7C15#64) ^^^ (BitVec.ofNat 64 lane * 0xD1B54A32D192ED03#64)
  let x1 := (x0 ^^^ (x0 >>> 31)) * 0xBF58476D1CE4E5B9#64
  let x2 := (x1 ^^^ (x1 >>> 31)) * 0x94D049BB133111EB#64
  let x3 := (x2 ^^^ (x2 >>> 31)) * 0xD6E8FEB86659FD93#64
  x3 ^^^ (x3 >>> 33)

/-- The coordinate word of COH (R40). -/
def cohWord (x y z : Nat) : Word :=
  BitVec.ofNat 64 (x % 2 ^ 20 + y % 2 ^ 20 * 2 ^ 20 + z % 2 ^ 20 * 2 ^ 40)

end Sys2Proof.Machine
end

