-- ==== Sys2Proof/Machine/Flags.lean ====
section
/-! DEFINITION. The flags of an instruction (R169): the seven sticky lane masks, which instruction sets
which, and the trap they enable (R171). -/

namespace Sys2Proof.Machine

/-- Flags raised by one element, one bit each. -/
structure Fl where
  iv : Bool := false
  dz : Bool := false
  ov : Bool := false
  uf : Bool := false
  nx : Bool := false
  io : Bool := false
  sat : Bool := false
deriving DecidableEq, Repr

/-- No flag. -/
def Fl.no : Fl := {}

/-- Flags of either. -/
def Fl.or (a b : Fl) : Fl :=
  ⟨a.iv || b.iv, a.dz || b.dz, a.ov || b.ov, a.uf || b.uf, a.nx || b.nx, a.io || b.io, a.sat || b.sat⟩

/-- All flags of a list. -/
def Fl.all (l : List Fl) : Fl := l.foldl Fl.or Fl.no

/-- The flag of number `k`: 0 IV, 1 DZ, 2 OF, 3 UF, 4 NX, 5 IO, 6 SAT (R37). -/
def Fl.bit (f : Fl) : Nat → Bool
  | 0 => f.iv | 1 => f.dz | 2 => f.ov | 3 => f.uf | 4 => f.nx | 5 => f.io | _ => f.sat

/-- Lanes of a result list that raised flag `k`. -/
def flagMask (k : Nat) (r : List (Nat × Fl)) : Mask :=
  r.foldl (fun m e => if e.2.bit k then m ||| (1#32 <<< e.1) else m) 0

/-- OR flag masks into the NFL registers, flags `k` to 6 (R169). -/
def orFlags (m : SMap Mask) (r : List (Nat × Fl)) : Nat → SMap Mask
  | 0 => m
  | n + 1 => orFlags (SMap.set 0 m (6 - n) (SMap.get 0 m (6 - n) ||| flagMask (6 - n) r)) r n

/-- Set the flags that each lane raised. -/
def Crew.raise (c : Crew) (r : List (Nat × Fl)) : Crew :=
  { c with g := { c.g with nfl := orFlags c.g.nfl r 7 } }

/-- Lanes that raised a flag whose TRAPEN bit is set (R171): bits 4 to 9 of CCR enable IV to IO. -/
def trapLanes (c : Crew) (r : List (Nat × Fl)) : Mask :=
  (List.range 6).foldl (fun m k => if c.g.ccr.getLsbD (4 + k) then m ||| flagMask k r else m) 0

/-- An integer result (R333): clamped under SAT, else wrapped, IO for a signed wrap. -/
def intResult (t : Ty) (sat : Bool) (x : Int) : Nat × Fl :=
  if sat then
    (wrapTo t.width (clampInt t x), { sat := decide (clampInt t x ≠ x) })
  else
    (wrapTo t.width x, { io := t.isSigned && decide (readInt t (wrapTo t.width x) ≠ x) })

/-- Quotient and remainder with their flags (R172, R340). -/
def divElem (t : Ty) (a b : Nat) : Nat × Nat × Fl :=
  let w := t.width
  let x := readInt t a
  let y := readInt t b
  if y = 0 then
    (if t.isSigned then (if 0 ≤ x then 2 ^ (w - 1) - 1 else 2 ^ (w - 1)) else 2 ^ w - 1, a,
      { dz := true })
  else if t.isSigned && decide (x = minInt t) && decide (y = -1) then
    (2 ^ (w - 1), 0, { io := true })
  else (wrapTo w (x.tdiv y), wrapTo w (x.tmod y), {})

end Sys2Proof.Machine
end

