-- ==== Sys2Proof/Machine/Float.lean ====
section
/-! DEFINITION. Floating-point arithmetic (R150 to R161, R343 to R346, R355): exact values m × 2^e,
one rounding, overflow, tininess, flushing and flags. -/

namespace Sys2Proof.Machine

/-! ## Formats -/

/-- Exponent and mantissa field widths and bias (R150). -/
def Fmt.eb : Ty → Nat
  | .f32 | .bf16 => 8 | .f16 | .e5m2 => 5 | .e4m3 => 4 | _ => 2
def Fmt.mb : Ty → Nat
  | .f32 => 23 | .f16 => 10 | .bf16 => 7 | .e4m3 => 3 | .e5m2 => 2 | _ => 1
def Fmt.bias : Ty → Int
  | .f32 | .bf16 => 127 | .f16 | .e5m2 => 15 | .e4m3 => 7 | _ => 1
/-- Whether the format has infinities (R151). -/
def Fmt.hasInf : Ty → Bool
  | .f32 | .f16 | .bf16 | .e5m2 => true | _ => false
/-- Whether CCR.FTZ flushes the format (R161). -/
def Fmt.flushes : Ty → Bool
  | .f32 | .f16 | .bf16 => true | _ => false
/-- The canonical NaN (R151); E2M1S has none and takes 0000 (R159). -/
def Fmt.nan : Ty → Nat
  | .f32 => 0x7FC00000 | .f16 => 0x7E00 | .bf16 => 0x7FC0 | .e4m3 => 0x7F | .e5m2 => 0x7E | _ => 0
/-- The largest finite value as a pattern without sign (R150). -/
def Fmt.maxBits : Ty → Nat
  | .f32 => 0x7F7FFFFF | .f16 => 0x7BFF | .bf16 => 0x7F7F | .e4m3 => 0x7E | .e5m2 => 0x7B | _ => 7
/-- The infinity pattern without sign (R151). -/
def Fmt.infBits : Ty → Nat
  | .f32 => 0x7F800000 | .f16 => 0x7C00 | .bf16 => 0x7F80 | .e5m2 => 0x7C | t => Fmt.maxBits t
/-- The sign bit. -/
def Fmt.signBit (t : Ty) : Nat := 2 ^ (t.width - 1)
/-- The exponent of the smallest subnormal (R150). -/
def Fmt.qmin (t : Ty) : Int := 1 - Fmt.bias t - (Fmt.mb t : Int)

/-- A value: NaN (signalling or not), an infinity, or (−1)^neg × m × 2^e. -/
inductive FV where
  | nan (sig : Bool)
  | inf (neg : Bool)
  | fin (neg : Bool) (m : Nat) (e : Int)
deriving DecidableEq, Repr

/-- Decode a pattern (R150, R151). A .e2m1s code decodes by its magnitude; its code 1000 is taken
before, by R152. -/
def decodeF (t : Ty) (n : Nat) : FV :=
  let mb := Fmt.mb t
  let neg := n / Fmt.signBit t % 2 == 1
  let ex := n / 2 ^ mb % 2 ^ Fmt.eb t
  let m := n % 2 ^ mb
  if t = .e4m3 then
    if n % 128 = 127 then .nan false
    else if ex = 0 then .fin neg m (Fmt.qmin t) else .fin neg (m + 8) (Fmt.qmin t + (ex : Int) - 1)
  else if Fmt.hasInf t && ex == 2 ^ Fmt.eb t - 1 then
    if m = 0 then .inf neg else .nan (t != .e5m2 && decide (m < 2 ^ (mb - 1)))
  else if ex = 0 then .fin neg m (Fmt.qmin t)
  else .fin neg (m + 2 ^ mb) (Fmt.qmin t + (ex : Int) - 1)

/-- A subnormal input becomes a zero of its sign under FTZ (R161). -/
def flushIn (ftz : Bool) (t : Ty) (v : FV) : FV :=
  match v with
  | .fin neg m e => if ftz && Fmt.flushes t && decide (m < 2 ^ Fmt.mb t) && e == Fmt.qmin t
      then .fin neg 0 e else v
  | _ => v

/-- Decode an operand with flushing. -/
def operandF (ftz : Bool) (t : Ty) (n : Nat) : FV := flushIn ftz t (decodeF t n)

/-! ## Rounding -/

/-- Bits of a number: the least k with n < 2^k. -/
def bitLen (n : Nat) : Nat := if n = 0 then 0 else Nat.log2 n + 1

/-- Round the positive value (m + a fraction when `st`) × 2^e to a multiple of 2^q by a mode 1 to 6;
the answer counts units of 2^q and says whether anything was lost. `r` is the draw of R158, which
orders the two neighbours as real numbers (log entry 13). -/
def roundAt (mode : Nat) (neg : Bool) (r m : Nat) (e : Int) (st : Bool) (q : Int) : Nat × Bool :=
  if q ≤ e && !st then (m * 2 ^ (e - q).toNat, false)
  else
    -- bring the value to units of 2^(q - s): s extra bits, with the fraction below them in `st`
    let s := if q ≤ e then 1 else (q - e).toNat
    let m' := if q ≤ e then m * 2 ^ ((e - q).toNat + 1) else m
    let k := m' / 2 ^ s
    let rem := m' % 2 ^ s
    let half := 2 ^ (s - 1)
    if rem = 0 && !st then (k, false)
    else
      let up := match mode with
        | 2 => false
        | 3 => neg
        | 4 => !neg
        | 5 => decide (half ≤ rem)
        | 6 => if neg then decide ((2 ^ s - rem) * 2 ^ 24 ≤ r * 2 ^ s)
            else decide (r * 2 ^ s < rem * 2 ^ 24)
        | _ => decide (half < rem) || (rem == half && (st || k % 2 == 1))
      (if up then k + 1 else k, true)

/-- The pattern of n × 2^q, where n has at most mb + 1 bits, or is 2^(mb + 1). -/
def encodeF (t : Ty) (neg : Bool) (n : Nat) (q : Int) : Nat :=
  let mb := Fmt.mb t
  let sg := if neg then Fmt.signBit t else 0
  if n < 2 ^ mb then sg + n
  else if n < 2 ^ (mb + 1) then sg + ((q - Fmt.qmin t).toNat + 1) * 2 ^ mb + (n - 2 ^ mb)
  else sg + ((q - Fmt.qmin t).toNat + 2) * 2 ^ mb

/-- Compare a × 2^i with b × 2^j: whether the first is larger. -/
def dyLt (a : Nat) (i : Int) (b : Nat) (j : Int) : Bool :=
  let lo := min i j
  decide (a * 2 ^ (i - lo).toNat < b * 2 ^ (j - lo).toNat)

/-- The result of an overflow (R159) with its flags. -/
def overflowF (t : Ty) (mode : Nat) (sat neg : Bool) : Nat × Fl :=
  let sg := if neg then Fmt.signBit t else 0
  let toMax := sat || !Fmt.hasInf t || mode == 2 || mode == 6 || (mode == 3 && !neg)
    || (mode == 4 && neg)
  (sg + (if toMax then Fmt.maxBits t else Fmt.infBits t), { ov := true, nx := true })

/-- Round an exact value to a format (R157 to R161): the pattern and the flags. -/
def roundF (t : Ty) (mode : Nat) (ftz sat : Bool) (r : Nat) (neg : Bool) (m : Nat) (e : Int)
    (st : Bool) : Nat × Fl :=
  let sg := if neg && t != .e2m1s then Fmt.signBit t else 0
  if m = 0 && !st then (sg, {})
  else
    let mb := Fmt.mb t
    let qmin := Fmt.qmin t
    let qU : Int := e + (bitLen m : Int) - 1 - (mb : Int)
    let q := if qU < qmin then qmin else qU
    let (n, nx) := roundAt mode neg r m e st q
    let (mMax, eMax) := match decodeF t (Fmt.maxBits t) with
      | .fin _ a b => (a, b)
      | _ => (0, 0)
    if dyLt mMax eMax n q then overflowF t mode sat neg
    else
      let (nU, _) := if qU < qmin then roundAt mode neg r m e st qU else (n, nx)
      let tiny := dyLt nU (if qU < qmin then qU else q) (2 ^ mb) qmin
      if ftz && Fmt.flushes t && decide (n < 2 ^ mb) then (sg, { uf := true, nx := true })
      else
        let code := encodeF t neg n q
        (if t = .e2m1s && n = 0 then 0 else code, { nx := nx, uf := nx && tiny })

/-- Round a value of any class to a format, as VCVT does (R151, R159). -/
def convertF (t : Ty) (mode : Nat) (ftz sat : Bool) (r : Nat) : FV → Nat × Fl
  | .nan sig => (Fmt.nan t, { iv := sig || t == .e2m1s })
  | .inf neg =>
      let sg := if neg then Fmt.signBit t else 0
      if Fmt.hasInf t && !sat then (sg + Fmt.infBits t, {})
      else (sg + Fmt.maxBits t, { ov := true, nx := true })
  | .fin neg m e => roundF t mode ftz sat r neg m e false

/-- The canonical NaN, with IV when `iv`. -/
def nanF (t : Ty) (iv : Bool) : Nat × Fl := (Fmt.nan t, { iv := iv })

/-- A signalling NaN. -/
def FV.sig : FV → Bool
  | .nan s => s
  | _ => false
/-- Any NaN. -/
def FV.isNan : FV → Bool
  | .nan _ => true
  | _ => false
/-- The value with its sign turned. -/
def FV.negate : FV → FV
  | .nan s => .nan s
  | .inf n => .inf (!n)
  | .fin n m e => .fin (!n) m e
/-- The magnitude. -/
def FV.mag : FV → FV
  | .nan s => .nan s
  | .inf _ => .inf false
  | .fin _ m e => .fin false m e

/-- An exact sum of values: a signed integer in units of 2^q. -/
def dySum (a : Bool × Nat × Int) (b : Bool × Nat × Int) : Int × Int :=
  let q := min a.2.2 b.2.2
  let x : Int := (a.2.1 * 2 ^ (a.2.2 - q).toNat : Nat)
  let y : Int := (b.2.1 * 2 ^ (b.2.2 - q).toNat : Nat)
  ((if a.1 then -x else x) + (if b.1 then -y else y), q)

/-- Round a sum of two finite terms; an exact zero is +0, −0 under RDN, or the common sign of two
zeros (R343, R344). -/
def roundSum (t : Ty) (mode : Nat) (ftz : Bool) (a b : Bool × Nat × Int) : Nat × Fl :=
  let (x, q) := dySum a b
  if x = 0 then
    let neg := if a.2.1 = 0 && b.2.1 = 0 && a.1 == b.1 then a.1 else mode == 3
    (if neg then Fmt.signBit t else 0, {})
  else roundF t mode ftz false 0 (decide (x < 0)) x.natAbs q false

/-- a + b rounded once (R343). -/
def addF (t : Ty) (mode : Nat) (ftz : Bool) (a b : FV) : Nat × Fl :=
  match a, b with
  | .nan s, v | v, .nan s => nanF t (s || v.sig)
  | .inf x, .inf y => if x == y then (if x then Fmt.signBit t + Fmt.infBits t else Fmt.infBits t, {})
      else nanF t true
  | .inf x, .fin _ _ _ | .fin _ _ _, .inf x =>
      (if x then Fmt.signBit t + Fmt.infBits t else Fmt.infBits t, {})
  | .fin na ma ea, .fin nb mb eb => roundSum t mode ftz (na, ma, ea) (nb, mb, eb)

/-- The exact product; none for 0 × ∞ (R344). NaN operands are taken before. -/
def mulExact : FV → FV → Option FV
  | .inf x, .fin y m _ | .fin y m _, .inf x => if m = 0 then none else some (.inf (x != y))
  | .inf x, .inf y => some (.inf (x != y))
  | .fin x m e, .fin y n f => some (.fin (x != y) (m * n) (e + f))
  | _, _ => none

/-- a × b rounded once (R344). -/
def mulF (t : Ty) (mode : Nat) (ftz : Bool) (a b : FV) : Nat × Fl :=
  if a.isNan || b.isNan then nanF t (a.sig || b.sig)
  else match mulExact a b with
    | none => nanF t true
    | some v => convertF t mode ftz false 0 v

/-- a × b + c rounded once (R344). -/
def fmaF (t : Ty) (mode : Nat) (ftz : Bool) (a b c : FV) : Nat × Fl :=
  let bad := !a.isNan && !b.isNan && (mulExact a b).isNone
  if a.isNan || b.isNan || c.isNan then nanF t (a.sig || b.sig || c.sig || bad)
  else match mulExact a b with
    | none => nanF t true
    | some p => addF t mode ftz p c

/-- Order of two values that are no NaN, −0 below +0 when `z`: whether a < b. -/
def ltF (z : Bool) (a b : FV) : Bool :=
  match a, b with
  | .inf x, .inf y => x && !y
  | .inf x, .fin _ _ _ => x
  | .fin _ _ _, .inf y => !y
  | .fin x m e, .fin y n f =>
      if m = 0 && n = 0 then z && x && !y
      else if x && !y then decide (m ≠ 0 ∨ n ≠ 0)
      else if y && !x then false
      else if x then dyLt n f m e else dyLt m e n f
  | _, _ => false

/-- Equality of values that are no NaN; −0 equals +0 (R337). -/
def eqF (a b : FV) : Bool := !ltF false a b && !ltF false b a

/-- The lesser, or the greater (R345), as a pattern of the operands' format. -/
def minmaxF (t : Ty) (isMax : Bool) (a b : FV) : Nat × Fl :=
  if a.isNan || b.isNan then nanF t (a.sig || b.sig)
  else
    let v := if isMax then (if ltF true a b then b else a) else (if ltF true b a then b else a)
    ((convertF t 1 false false 0 v).1, {})

/-! ## Integer conversions (R160) -/

/-- A value to an integer type: rounded by the mode, then clamped. -/
def toIntF (t : Ty) (mode r : Nat) : FV → Nat × Fl
  | .nan _ => (0, { iv := true })
  | .inf neg => (wrapTo t.width (if neg then minInt t else maxInt t), { iv := true })
  | .fin neg m e =>
      let (n, nx) := roundAt mode neg r m e false 0
      let x : Int := if neg then -(n : Int) else n
      let y := clampInt t x
      if y = x then (wrapTo t.width x, { nx := nx }) else (wrapTo t.width y, { iv := true })

/-- An integer to a floating-point format. -/
def ofIntF (t : Ty) (mode : Nat) (ftz sat : Bool) (r : Nat) (x : Int) : Nat × Fl :=
  roundF t mode ftz sat r (decide (x < 0)) x.natAbs 0 false

/-! ## Elementary functions (R355) -/

/-- Integer square root by bits: the largest r with r × r ≤ n, bits below `k`. -/
def isqrtAux (n : Nat) : Nat → Nat → Nat
  | 0, r => r
  | k + 1, r => let r' := r + 2 ^ k
      isqrtAux n k (if r' * r' ≤ n then r' else r)
def isqrt (n : Nat) : Nat := isqrtAux n (bitLen n / 2 + 1) 0

/-- Fraction bits of the fixed-point series below. -/
def fxBits : Nat := 400

/-- Sum of x^(2k+1)/(2k+1) with sign alternating when `alt`, from the term `p` = x^(2k+1) in fixed
point: the series of atan and atanh. -/
def oddSeries (alt : Bool) (x2 : Nat) (F : Nat) : Nat → Nat → Nat → Int → Int
  | 0, _, _, acc => acc
  | n + 1, k, p, acc =>
      let term : Int := (p / (2 * k + 1) : Nat)
      let acc' := if alt && k % 2 == 1 then acc - term else acc + term
      oddSeries alt x2 F n (k + 1) (p * x2 / 2 ^ F) acc'

/-- atan(1/d) in fixed point. -/
def atanInv (F d : Nat) : Int :=
  oddSeries true (2 ^ F / (d * d)) F (F / 4 + 2) 0 (2 ^ F / d) 0

/-- π in fixed point, by Machin's formula. -/
def piFx (F : Nat) : Nat := (4 * (4 * atanInv F 5 - atanInv F 239)).toNat

/-- ln of y/2^F for y between 2^F and 2^(F+1), by atanh((y − 1)/(y + 1)). -/
def lnFx (F y : Nat) : Int :=
  let x := (y - 2 ^ F) * 2 ^ F / (y + 2 ^ F)
  2 * oddSeries false (x * x / 2 ^ F) F (F / 3 + 4) 0 x 0

/-- ln 2 in fixed point. -/
def ln2Fx (F : Nat) : Int := lnFx F (2 ^ (F + 1))

/-- Taylor sum: the terms p, p·x/k, p·x²/(k(k+1)), …, `step` factors at a time, sign alternating when
`alt`: exp (step 1), cos and sin (step 2). -/
def taylor (alt : Bool) (step x F : Nat) : Nat → Nat → Nat → Bool → Int → Int
  | 0, _, _, _, acc => acc
  | n + 1, k, p, sg, acc =>
      let acc' := if sg then acc - (p : Int) else acc + (p : Int)
      let p' := if step = 1 then p * x / 2 ^ F / k
        else (p * x / 2 ^ F / k) * x / 2 ^ F / (k + 1)
      taylor alt step x F n (k + step) p' (alt && !sg) acc'

/-- e^x for 0 ≤ x < 1 in fixed point. -/
def expFx (F x : Nat) : Nat := (taylor false 1 x F 120 1 (2 ^ F) false 0).toNat
/-- cos x and sin x for 0 ≤ x < 2 in fixed point. -/
def cosFx (F x : Nat) : Int := taylor true 2 x F 70 1 (2 ^ F) false 0
def sinFx (F x : Nat) : Int := taylor true 2 x F 70 2 x false 0

/-- Round a fixed-point result that is not exact. -/
def roundFx (F : Nat) (ftz neg : Bool) (y : Nat) : Nat × Fl :=
  roundF .f32 1 ftz false 0 neg y (-(F : Int)) true

/-- 2^v for v = (−1)^neg m 2^e, finite and not an integer multiple handled by the exact case. -/
def exp2F (ftz neg : Bool) (m : Nat) (e : Int) : Nat × Fl :=
  let F := fxBits
  if 0 ≤ e || m % 2 ^ (-e).toNat == 0 then
    -- an integer
    let k : Nat := if 0 ≤ e then m * 2 ^ (min e 200).toNat else m / 2 ^ (-e).toNat
    let k := min k 100000
    roundF .f32 1 ftz false 0 false 1 (if neg then -(k : Int) else k) false
  else if 20 ≤ (bitLen m : Int) + e then
    -- a magnitude of 2^19 or more
    roundF .f32 1 ftz false 0 false 1 (if neg then -100000 else 100000) true
  else
    let whole := m / 2 ^ (-e).toNat
    let fr := m % 2 ^ (-e).toNat
    -- x = floor + f with 0 < f < 1
    let fx : Nat := fr * 2 ^ F / 2 ^ (-e).toNat
    let (i, f) : Int × Nat := if neg then (-(whole : Int) - 1, 2 ^ F - fx - 1) else ((whole : Int), fx)
    let y := expFx F (f * (ln2Fx F).toNat / 2 ^ F)
    if fx = 0 then
      -- |x| below 2^-400 of the unit: the result lies next to 1
      roundF .f32 1 ftz false 0 false (if neg then 2 ^ 60 - 1 else 2 ^ 60) (-60) true
    else roundF .f32 1 ftz false 0 false y (i - F) true

/-- log2 of m × 2^e, m not 0. -/
def log2F (ftz : Bool) (m : Nat) (e : Int) : Nat × Fl :=
  let F := fxBits
  let k := bitLen m - 1
  let i : Int := e + k
  if m = 2 ^ k then
    roundF .f32 1 ftz false 0 (decide (i < 0)) i.natAbs 0 false
  else
    let y := m * 2 ^ F / 2 ^ k
    let l := lnFx F y * (2 ^ F : Nat) / ln2Fx F
    let v := i * (2 ^ F : Nat) + l
    if v < 0 then roundFx F ftz true (v.natAbs - 1) else roundFx F ftz false v.toNat

/-- sin or cos of (−1)^neg m 2^e, m not 0. -/
def trigF (ftz isCos neg : Bool) (m : Nat) (e : Int) : Nat × Fl :=
  let F := fxBits
  let G := F + 160
  -- the angle in units of 2^-G
  let a := if 0 ≤ e + G then m * 2 ^ (e + G).toNat else m / 2 ^ (-(e + G)).toNat
  let halfPi := piFx G / 2
  let n := a / halfPi
  let r := (a - n * halfPi) / 2 ^ 160
  let quad := (n + (if isCos then 1 else 0)) % 4
  let y := if quad % 2 = 0 then sinFx F r else cosFx F r
  let sg := (quad == 2 || quad == 3) != (neg && !isCos)
  if isCos && decide (y.toNat ≥ 2 ^ F) then roundF .f32 1 ftz false 0 sg (2 ^ 60 - 1) (-60) true
  else if !isCos && decide (n = 0) && decide (bitLen m + e < -100) then
    -- sin x lies just below x
    roundF .f32 1 ftz false 0 neg (m * 2 ^ 60 - 1) (e - 60) true
  else roundFx F ftz sg y.toNat

/-- tanh of (−1)^neg m 2^e, m not 0. -/
def tanhF (ftz neg : Bool) (m : Nat) (e : Int) : Nat × Fl :=
  let F := fxBits
  if bitLen m + e < -60 then roundF .f32 1 ftz false 0 neg (m * 2 ^ 200 - 1) (e - 200) true
  else if 7 ≤ (bitLen m : Int) + e then roundF .f32 1 ftz false 0 neg (2 ^ 60 - 1) (-60) true
  else
    -- t = e^(-2x) by squaring e^(-2x/256) eight times: tanh = (1 - t)/(1 + t)
    let x := if 0 ≤ e + F then m * 2 ^ (e + F).toNat else m / 2 ^ (-(e + F)).toNat
    let b := expFx F (x * 2 / 256)
    let sq := fun (v : Nat) => v * v / 2 ^ F
    let big := sq (sq (sq (sq (sq (sq (sq (sq b)))))))
    let y := (big - 2 ^ F) * 2 ^ F / (big + 2 ^ F)
    roundFx F ftz neg y

/-- VSF on one FP32 element (R355). -/
def sfF (fn : SfFn) (ftz : Bool) (n : Nat) : Nat × Fl :=
  let sgn (neg : Bool) (b : Nat) : Nat := if neg then 0x80000000 + b else b
  match operandF ftz .f32 n with
  | .nan s => nanF .f32 s
  | .inf neg => match fn with
    | .rcp => (sgn neg 0, {})
    | .rsq => if neg then nanF .f32 true else (0, {})
    | .sqrt | .log2 => if neg then nanF .f32 true else (0x7F800000, {})
    | .exp2 => (if neg then 0 else 0x7F800000, {})
    | .sin | .cos => nanF .f32 true
    | .tanh => (sgn neg 0x3F800000, {})
  | .fin neg m e =>
    if m = 0 then match fn with
      | .rcp | .rsq => (sgn neg 0x7F800000, { dz := true })
      | .sqrt | .sin | .tanh => (sgn neg 0, {})
      | .exp2 | .cos => (0x3F800000, {})
      | .log2 => (0xFF800000, { dz := true })
    else match fn with
      | .rcp =>
        let k := bitLen m + 80
        roundF .f32 1 ftz false 0 neg (2 ^ k / m) (-e - k) (2 ^ k % m != 0)
      | .sqrt => if neg then nanF .f32 true else
        -- an even exponent with room for 60 more result bits
        let (m', e') : Nat × Int := if e % 2 = 0 then (m * 2 ^ 120, e - 120) else (m * 2 ^ 121, e - 121)
        let r := isqrt m'
        roundF .f32 1 ftz false 0 false r (e' / 2) (r * r != m')
      | .rsq => if neg then nanF .f32 true else
        let (m', e') : Nat × Int := if e % 2 = 0 then (m, e) else (2 * m, e - 1)
        -- 1/sqrt(m' 2^e') = sqrt(2^(2k)/m') 2^(-k - e'/2)
        let k := bitLen m' + 80
        let y := 2 ^ (2 * k) / m'
        let r := isqrt y
        roundF .f32 1 ftz false 0 false r (-(k : Int) - e' / 2) (r * r * m' != 2 ^ (2 * k))
      | .exp2 => exp2F ftz neg m e
      | .log2 => if neg then nanF .f32 true else log2F ftz m e
      | .sin => trigF ftz false neg m e
      | .cos => trigF ftz true neg m e
      | .tanh => tanhF ftz neg m e

/-- Entry `i` of the Gumbel table (R174): −ln(−ln((i + 0.5)/1024)) in FP16, RNE. -/
def gumbel (i : Nat) : Nat :=
  let F := fxBits
  -- u = (2i + 1)/2048; −ln u = 11 ln 2 − ln(2i + 1)
  let m := 2 * i + 1
  let k := bitLen m - 1
  let a := (11 - (k : Int)) * ln2Fx F - lnFx F (m * 2 ^ F / 2 ^ k)
  -- ln a, a > 0
  let an := a.toNat
  let j : Int := (bitLen an : Int) - 1 - F
  let y := if 0 ≤ j then an / 2 ^ j.toNat else an * 2 ^ (-j).toNat
  let l := lnFx F y + j * ln2Fx F
  (roundF .f16 1 false false 0 (decide (0 < l)) l.natAbs (-(F : Int)) true).1

end Sys2Proof.Machine
end

