-- ==== Sys2Proof/Machine/Mem.lean ====
section
/-! DEFINITION. Global memory at its homes and its instants (R105 to R109), translation (R122 to R138),
the accesses of a unit by lane, and the words a queue names (R369). A home byte has the key
space × 2^56 + physical address: space 0 and 1 are the dies, 2 the host bus, 3 the scratchpad windows of
R130. -/

namespace Sys2Proof.Machine

/-! ## Bytes at their homes -/

/-- What an unlisted byte reads as: zero (R243; log entry 3). -/
def Memory.absent : Byte := 0

/-- The canonical form of memory. -/
def Memory.wf (m : List Host.Cell) : Bool := SMap.wf Memory.absent m

/-- The byte a home holds now. -/
def State.byteAt (s : State) (k : Nat) : Byte := SMap.get Memory.absent s.mem.mem k

/-- The byte a home held at instant `t` (R109). -/
def State.byteWas (s : State) (t k : Nat) : Byte :=
  s.mem.hist.foldl (fun v e => if e.2.1 = k ∧ t < e.1 then e.2.2 else v) (s.byteAt k)

/-- Read `n` bytes at a home now. -/
def State.readKey (s : State) (k n : Nat) : Word :=
  BitVec.ofNat 64 (leVal ((List.range n).map (fun i => s.byteAt (k + i))))

/-- Read `n` bytes as the home held them at instant `t`. -/
def State.readWas (s : State) (t k n : Nat) : Word :=
  BitVec.ofNat 64 (leVal ((List.range n).map (fun i => s.byteWas t (k + i))))

/-- Write bytes at rising keys. -/
def putBytes (m : List Host.Cell) (k : Nat) : List Byte → List Host.Cell
  | [] => m
  | b :: r => putBytes (SMap.set Memory.absent m k b) (k + 1) r

/-- The history entries of a write at instant `t`. -/
def histOf (s : State) (t k : Nat) : List Byte → List (Nat × Nat × Byte)
  | [] => []
  | _ :: r => (t, k, s.byteAt k) :: histOf s t (k + 1) r

/-- Perform a write at its home at a new instant (R106). A write of a whole 64-byte line clears its
poison (R244). Stores of crews, of 8 bytes at most each, clear none, whatever the lanes of one instruction cover together,
and so do the words of lane-private regions: the model's choice (log entry 117). -/
def State.writeKey (s : State) (k : Nat) (bs : List Byte) : State :=
  let t := s.fresh.stamp + 1
  { s with
    fresh := { s.fresh with stamp := t }
    mem := { s.mem with
      mem := putBytes s.mem.mem k bs
      hist := histOf s t k bs ++ s.mem.hist
      poison := s.mem.poison.filter (fun l => !(decide (k ≤ 64 * l) && decide (64 * l + 64 ≤ k + bs.length))) } }

/-- A read of these bytes meets poisoned data (R244). -/
def State.poisoned (s : State) (k n : Nat) : Bool :=
  s.mem.poison.any (fun l => decide (64 * l < k + n) && decide (k < 64 * l + 64))

/-- The first poisoned byte of a range, as its distance from the start. -/
def State.firstPoison (s : State) (k n : Nat) : Option Nat :=
  if s.poisoned k n then (List.range n).find? (fun i => s.poisoned (k + i) 1) else none

/-! ## Virtual addresses (R122) -/

def vaDev (va : Word) : Nat := va.toNat / 2 ^ 54
def vaDie (va : Word) : Nat := va.toNat / 2 ^ 52 % 4
def vaOff (va : Word) : Nat := va.toNat % 2 ^ 52
/-- The 64 KiB page of a VA: bits [63:16]. -/
def vaPage (va : Word) : Nat := va.toNat / 2 ^ 16
/-- The first VA of a page. -/
def pageVa (p : Nat) : Word := BitVec.ofNat 64 (p * 2 ^ 16)

/-- Where a request goes by its VA alone (R123, R198). -/
inductive Route where
  | own (die : Nat)
  | remote (dev : Nat)
  | fenced (dev : Nat)
  | bad
deriving DecidableEq, Repr

/-- A device is reachable when a die's route mask for it is not empty (R198). -/
def State.reachable (s : State) (dev : Nat) : Bool :=
  SMap.get 0 s.fab.routes dev != 0 || SMap.get 0 s.fab.routes (1024 + dev) != 0

/-- The ports (12 × die + number) that a die's requests to a device may use: those of its own mask, else of the
other die's (R198). -/
def State.portsTo (s : State) (die dev : Nat) : List Nat :=
  let on (d : Nat) : List Nat :=
    ((List.range 12).filter (bitOf (SMap.get 0 s.fab.routes (1024 * d + dev)))).map (12 * d + ·)
  if (on die).isEmpty then on (1 - die) else on die

/-- The port of an access to a device: number j mod m of the m ports, where j is VA[20:16] (R198). -/
def State.accessPort (s : State) (die dev : Nat) (va : Word) : Option Nat :=
  let ps := s.portsTo die dev
  ps[vaPage va % 32 % ps.length]?

/-- The port of a remote record to a device: the lowest (R198). -/
def State.recordPort (s : State) (die dev : Nat) : Option Nat := (s.portsTo die dev).head?

/-- The die whose merge table a page belongs to (R124, R132). -/
def pageDie (page : Nat) : Nat := if page / 2 ^ 36 % 4 = 1 then 1 else 0

/-- R123. -/
def State.route (s : State) (va : Word) : Route :=
  if vaDie va = 3 then .bad
  else if vaDev va = s.devid then .own (vaDie va)
  else if s.fab.fenced.contains (vaDev va) then .fenced (vaDev va)
  else if s.fab.admitted.contains (vaDev va) && s.reachable (vaDev va) then .remote (vaDev va)
  else .bad

/-! ## Page tables (R126 to R130) -/

/-- A leaf or the outcome at which a walk stops (R128). -/
inductive Walk where
  | leaf (level pte : Nat)
  | access (malformed : Bool)
  | absent
deriving DecidableEq, Repr

/-- R130: the window fields of a HOME = 10 leaf in the space of die `die`. -/
def windowOk (level pte die : Nat) : Bool :=
  level == 4 && decide (die < 2) && bitsOf pte 55 28 == 0 && decide (bitsOf pte 23 16 < 192)
    && bitsOf pte 23 16 / 96 == die

/-- Order 4 of R128 for a leaf: FRAME alignment and window fields. -/
def leafOk (level pte die : Nat) : Bool :=
  (level != 3 || bitsOf pte 20 16 == 0) && (level != 2 || bitsOf pte 29 16 == 0)
    && (bitsOf pte 4 3 != 2 || windowOk level pte die)

/-- The key of the first byte of a page under a leaf (R105, R130). -/
def leafKey (die level pte off : Nat) : Nat :=
  if bitsOf pte 4 3 = 2 then 3 * 2 ^ 56 + bitsOf pte 23 16 * 2 ^ 20 + bitsOf pte 27 24 * 2 ^ 16
  else
    let span := if level = 2 then 2 ^ 30 else if level = 3 then 2 ^ 21 else 2 ^ 16
    die * 2 ^ 56 + bitsOf pte 55 16 * 2 ^ 16 + off % span / 2 ^ 16 * 2 ^ 16

/-- 64 KiB frames of a die: 8 stacks of 64 GiB (R9). -/
def dieFrames : Nat := 2 ^ 23

/-- The pseudo-channel that homes a frame of a die, of the 3,072 of that die (R8, R9): equal parts of each stack's
64 GiB in rising order, the model's choice (log entry 76). -/
def homeChannel (die frame : Nat) : Nat := 3072 * die + frame * 3072 / dieFrames

/-- The frames that a pseudo-channel homes. -/
def channelFrames (c : Nat) : Nat := (dieFrames * (c % 3072 + 1) + 3071) / 3072 - (dieFrames * (c % 3072) + 3071) / 3072

/-- A pseudo-channel is retired: itself, with its slice, or with its stack (R15). Slice n homes channels 6 n to
6 n + 5, and channel c lies on stack c / 384: the model's choice (log entry 76). -/
def Repair.lost (r : Repair) (c : Nat) : Bool :=
  r.channels.contains c || r.slices.contains (c / 6) || r.hbm.contains (c / 384)

/-- Nothing of the memory is retired (R15). -/
def Repair.whole (r : Repair) : Bool := r.slices.isEmpty && r.channels.isEmpty && r.hbm.isEmpty

/-- A home lies in memory withdrawn with a retired unit (R15): no mapping refers to it, and a leaf that does is
no mapping (log entry 76). -/
def State.withdrawn (s : State) (k : Nat) : Bool :=
  !s.host.applied.whole && decide (k / 2 ^ 56 < 2) && decide (k % 2 ^ 56 / 2 ^ 16 < dieFrames)
    && s.host.applied.lost (homeChannel (k / 2 ^ 56) (k % 2 ^ 56 / 2 ^ 16))

/-- Walk the tables from a level on (R127, R128): level, index shift and index bits of each. `sp` is the
space that holds the tables (log entry 7). -/
def walkFrom (s : State) (sp die off : Nat) : List (Nat × Nat × Nat) → Nat → Walk
  | [], _ => .access true
  | (lvl, sh, bits) :: rest, table =>
    let pte := (s.readKey (sp * 2 ^ 56 + table + 8 * (off / 2 ^ sh % 2 ^ bits)) 8).toNat
    let size := bitsOf pte 6 5
    if !bitOf pte 0 then .access false
    else if size = 3 then
      if lvl = 4 || bitsOf pte 63 56 != 0 || bitOf pte 7 || bitsOf pte 4 2 != 0 then .access true
      else if !bitOf pte 1 then .absent
      else if lvl ≠ 3 && bitsOf pte 11 8 != 0 then .access true
      else walkFrom s sp die off rest (bitsOf pte 55 8 * 256)
    else if size + lvl ≠ 4 || bitsOf pte 59 56 != 0 || bitsOf pte 15 8 != 0 then .access true
    else if !bitOf pte 1 then .absent
    else if !leafOk lvl pte die then .access true
    else if s.withdrawn (leafKey die lvl pte off) then .access false
    else .leaf lvl pte

/-- The four levels (R126). -/
def levels : List (Nat × Nat × Nat) := [(1, 39, 13), (2, 30, 9), (3, 21, 9), (4, 16, 5)]

/-- The root of a context for a die code (R126). -/
def Ctx.root (c : Ctx) : Nat → Word
  | 0 => c.root0
  | 1 => c.root1
  | _ => c.rootH

/-- The space that holds the tables of a die code: the owning die, die 0 for host memory. -/
def tableSpace (die : Nat) : Nat := if die = 1 then 1 else 0

/-- Orders 5 to 9 of R128. -/
def leafOutcome (c : Ctx) (die level pte off : Nat) (a : Acc) : Xlat :=
  if die = 2 && (bitsOf pte 4 3 == 1 || bitsOf pte 4 3 == 2) then .fault 4
  else if !c.keys.getLsbD (bitsOf pte 63 60) then .fault 5
  else if a != .load && !bitOf pte 2 && !bitOf pte 7 then .fault 5
  else if a != .load && bitOf pte 7 then .req (if level = 4 then 1 else 2)
  else .home (leafKey die level pte off)

/-- The addresses of the listed words of a table of `n` entries: only they can hold a valid one. -/
def State.tableKeys (s : State) (sp table n : Nat) : List Nat :=
  let lo := sp * 2 ^ 56 + table
  (s.mem.mem.filter (fun c => decide (lo ≤ c.1) && decide (c.1 < lo + 8 * n) && c.1 % 8 == 0)).map (·.1)

/-- The level 4 leaves that a walk from a table can reach, as it reads them (R127, R128). -/
def State.smallLeaves (s : State) (sp die : Nat) : List (Nat × Nat × Nat) → Nat → List Nat
  | [], _ => []
  | (lvl, _, bits) :: rest, table =>
    (s.tableKeys sp table (2 ^ bits)).flatMap (fun k =>
      let pte := (s.readKey k 8).toNat
      let size := bitsOf pte 6 5
      if !bitOf pte 0 || !bitOf pte 1 then []
      else if size = 3 then
        if lvl = 4 || bitsOf pte 63 56 != 0 || bitOf pte 7 || bitsOf pte 4 2 != 0
            || (lvl != 3 && bitsOf pte 11 8 != 0) then []
        else State.smallLeaves s sp die rest (bitsOf pte 55 8 * 256)
      else if lvl = 4 && size == 0 && bitsOf pte 59 56 == 0 && bitsOf pte 15 8 == 0 && leafOk lvl pte die then [pte]
      else [])

/-- The scratchpad windows that a mapping exists for (R130): core and window, each once. -/
def State.windows (s : State) : List (Nat × Nat) :=
  (s.mmu.ctxs.flatMap (fun c => [0, 1].flatMap (fun die =>
    ((s.smallLeaves die die levels (c.root die).toNat).filter (fun p => bitsOf p 4 3 == 2)).map
      (fun p => (bitsOf p 23 16, bitsOf p 27 24))))).eraseDups

/-- What the owning die answers for a page, if it can answer now: none while the host's IOMMU has not
answered, or is to be asked again for what its answer does not allow (R208). The flag says that a malformed entry was met. `rewalk` passes the TLB by. -/
def State.xlate (s : State) (ctxn : Nat) (va : Word) (a : Acc) (rewalk : Bool) : Option (Xlat × Bool) :=
  match s.ctx? ctxn with
  | none => some (.fault 4, false)
  | some c =>
    let die := vaDie va
    let off := vaOff va
    let hit := s.mmu.tlb.find? (fun e => e.ctx == ctxn && e.page == vaPage va)
    match (if rewalk then none else hit) with
    | some e => some (leafOutcome c die e.level e.leaf.toNat off a, false)
    | none =>
      if die = 2 && c.rootH == 0 then
        match s.mmu.ats.find? (fun e => e.ctx == ctxn && e.page == vaPage va) with
        | none => none
        | some e =>
          let short : Option (Xlat × Bool) := if e.again then none else some (.req 0, false)
          match e.bus with
          | none => short
          | some b => if a != .load && !e.w then short else some (.home (2 * 2 ^ 56 + b * 2 ^ 16), false)
      else match walkFrom s (tableSpace die) die off levels (c.root die).toNat with
        | .access m => some (.fault 4, m)
        | .absent => some (.req 0, false)
        | .leaf l p => some (leafOutcome c die l p off a, false)

/-- The outcome, with a page that cannot be answered yet taken as a page request of kind 0. -/
def State.xlateNow (s : State) (ctxn : Nat) (va : Word) (a : Acc) : Xlat :=
  match s.xlate ctxn va a false with
  | some (x, _) => x
  | none => .req 0

/-- The mapping of a page that a TLB entry holds, as one that L1 may go on to show (R131): context, page, key
and the instant at which it ends. -/
def State.oldMap (s : State) (e : TlbEntry) : List (Nat × Nat × Nat × Nat) :=
  match s.ctx? e.ctx with
  | none => []
  | some c =>
    match leafOutcome c (vaDie (pageVa e.page)) e.level e.leaf.toNat (vaOff (pageVa e.page)) .load with
    | .home k => [(e.ctx, e.page, k, s.fresh.stamp)]
    | _ => []

/-- Hold the leaf of a page in the memory-side TLB (R124); a page that the host translates has no leaf here
(R208). An entry that it replaces may still show in L1 (R131). -/
def State.fillTlb (s : State) (ctxn : Nat) (va : Word) : State :=
  match s.ctx? ctxn with
  | none => s
  | some c =>
    if vaDie va = 2 && c.rootH == 0 then s else
    match walkFrom s (tableSpace (vaDie va)) (vaDie va) (vaOff va) levels (c.root (vaDie va)).toNat with
    | .leaf l p =>
      let mine (e : TlbEntry) : Bool := e.ctx == ctxn && e.page == vaPage va
      let new_ : TlbEntry := ⟨ctxn, vaPage va, l, BitVec.ofNat 64 p⟩
      let gone := (s.mmu.tlb.filter (fun e => mine e && e != new_)).flatMap s.oldMap
      { s with mmu := { s.mmu with
          tlb := new_ :: s.mmu.tlb.filter (fun e => !mine e), old := gone ++ s.mmu.old } }
    | _ => s

/-- Count a malformed entry on a die (R128). -/
def State.countMalformed (s : State) (die : Nat) : State :=
  let m := s.mmu.malformed.set die (s.mmu.malformed.getD die 0 + 1)
  { s with mmu := { s.mmu with malformed := m } }

/-- A core's access filter holds a page with the permission needed (R129). -/
def State.filterHit (s : State) (core ctxn page : Nat) (a : Acc) : Bool :=
  s.mmu.filter.any (fun e => e.core == core && e.ctx == ctxn && e.page == page && (if a = .load then e.r else e.w))

/-- Whether an access of a kind to a page proceeds to its home (R128). -/
def State.permits (s : State) (ctxn page : Nat) (a : Acc) : Bool := match s.xlateNow ctxn (pageVa page) a with
  | .home _ => true
  | _ => false

/-- The leaf of a page as its die's TLB holds it, else as a walk finds it. -/
def State.leafOf (s : State) (c : Ctx) (page : Nat) : Option (Nat × Nat) :=
  let va := pageVa page
  match s.mmu.tlb.find? (fun e => e.ctx == c.n && e.page == page) with
  | some e => some (e.level, e.leaf.toNat)
  | none => match walkFrom s (tableSpace (vaDie va)) (vaDie va) (vaOff va) levels (c.root (vaDie va)).toNat with
    | .leaf l p => some (l, p)
    | _ => none

/-- The HOME of a page's leaf (R105); 0 for a page that the host's IOMMU translates, which has none. -/
def State.homeOf (s : State) (ctxn page : Nat) : Nat :=
  match (s.ctx? ctxn).bind (fun c => if page / 2 ^ 36 % 4 == 2 && c.rootH == 0 then none
      else s.leafOf c page) with
  | some (_, p) => bitsOf p 4 3
  | none => 0

/-- Fill a core's filter with a page's HOME and permissions (R129); the oldest entry of a full filter leaves
(log entry 8). -/
def State.fillFilter (s : State) (core ctxn page : Nat) : State :=
  let rest := s.mmu.filter.filter (fun e => !(e.core == core && e.ctx == ctxn && e.page == page))
  let mine := rest.filter (fun e => e.core == core)
  let rest := if mine.length < 1024 then rest
    else rest.filter (fun e => e.core != core) ++ mine.take 1023
  let e : FilterEntry :=
    { core := core, ctx := ctxn, page := page, r := s.permits ctxn page .load, w := s.permits ctxn page .store
      home := s.homeOf ctxn page }
  { s with mmu := { s.mmu with filter := e :: rest } }

/-! ## Page requests (R132, R133) -/

/-- The generation of a context (R138). -/
def State.genOf (s : State) (ctxn : Nat) : Nat := match s.ctx? ctxn with
  | some c => c.gen
  | none => 0

/-- The PASID of a context (R207). -/
def State.pasidOf (s : State) (ctxn : Nat) : Nat := match s.ctx? ctxn with
  | some c => c.pasid
  | none => 0

/-- Ask the host's IOMMU for the translation of a page: the PASID and OFFSET (R208). -/
def State.askAts (s : State) (ctxn page : Nat) : State :=
  s.send (.ats ctxn (s.pasidOf ctxn) (vaOff (pageVa page)))

/-- The request to core 3, or to the host through PRI for a host page without tables (R133, R208). -/
def State.sendPageReq (s : State) (ctxn page kind : Nat) (fpc : Word) : State :=
  let host := decide (page / 2 ^ 36 % 4 = 2) && (match s.ctx? ctxn with
    | some c => c.rootH == 0 | none => false)
  if host then ({ s with mmu := { s.mmu with pris := s.mmu.pris ++ [(ctxn, s.genOf ctxn, page)] } }).send
    (.pri ctxn (s.pasidOf ctxn) (vaOff (pageVa page)))
  else s.send (.pageRequest (BitVec.ofNat 64 (page * 2 ^ 16 + kind))
    (BitVec.ofNat 64 (s.genOf ctxn * 2 ^ 16 + ctxn)) fpc)

/-- The start of a copy-on-write sequence (R140): take the frame at the head of the context's list (log entry 7)
and run the copy on the copy engine of core (page mod 96) of the die, or send a request of KIND 1 when the list
is empty, or when the page has no leaf any more (log entry 79). -/
def State.startCow (s : State) (ctxn page : Nat) (fpc : Word) : State :=
  match s.ctx? ctxn with
  | none => s
  | some c =>
    let va := pageVa page
    if c.frHead = c.frTail then s.sendPageReq ctxn page 1 fpc
    else match s.leafOf c page with
      | some (l, p) =>
        let new_ := (s.readKey (tableSpace (vaDie va) * 2 ^ 56 + c.frBase.toNat + 8 * c.frHead) 8).toNat
        let old := leafKey (vaDie va) l p (vaOff va) % 2 ^ 56
        let c1 := { c with frHead := (c.frHead + 1) % c.frCap }
        { s with mmu := { s.mmu with
            ctxs := s.mmu.ctxs.map (fun x => if x.n == ctxn then c1 else x)
            cows := s.mmu.cows ++ [⟨pageDie page, ctxn, page, old, new_, 96 * pageDie page + page % 96⟩] } }
      | none => s.sendPageReq ctxn page 1 fpc

/-- Join the merge table for a page (R132): a new key takes an entry and sends one request, or waits in
the overflow queue when 4,096 are in use or other keys wait there. -/
def State.joinMerge (s : State) (ctxn page kind : Nat) (fpc : Word) : State :=
  let die := pageDie page
  let gen := s.genOf ctxn
  if s.mmu.merge.any (fun e => e.die == die && e.ctx == ctxn && e.gen == gen && e.page == page) then s
  else
    let used := (s.mmu.merge.filter (fun e => e.die == die && e.open_)).length
    let open_ := decide (used < 4096) && s.mmu.merge.all (fun e => e.die != die || e.open_)
    let s := { s with mmu := { s.mmu with merge := s.mmu.merge ++ [⟨die, ctxn, gen, page, kind, open_, fpc⟩] } }
    if !open_ then s
    else if kind = 1 then s.startCow ctxn page fpc
    else s.sendPageReq ctxn page kind fpc

/-- The first key of a die's overflow queue takes a freed entry (R132). -/
def State.advanceOverflow (s : State) (die : Nat) : State :=
  let used := (s.mmu.merge.filter (fun e => e.die == die && e.open_)).length
  match s.mmu.merge.find? (fun e => e.die == die && !e.open_) with
  | none => s
  | some m =>
    if 4096 ≤ used then s
    else
      let l := s.mmu.merge.map (fun e =>
        if e.die == die && e.ctx == m.ctx && e.gen == m.gen && e.page == m.page
        then { e with open_ := true } else e)
      let s := { s with mmu := { s.mmu with merge := l } }
      if m.kind = 1 then s.startCow m.ctx m.page m.fpc else s.sendPageReq m.ctx m.page m.kind m.fpc

/-- As many keys of a die's overflow queue as there is room for take entries (R132). -/
def State.advanceAll (s : State) (die : Nat) : State :=
  (List.range ((s.mmu.merge.filter (fun e => e.die == die && !e.open_)).length)).foldl
    (fun s _ => s.advanceOverflow die) s

/-! ## The lanes of a unit -/

/-- What a lane's access meets (R123, R128, R129). `need` is a page whose outcome is not known yet. -/
inductive Lane where
  | fault (cause : Nat)
  | home (key : Nat)
  | req (kind : Nat)
  | need
  | remote (dev : Nat)
  | fenced (dev : Nat)
deriving DecidableEq, Repr

/-- Resolve one lane of a crew on `core` in context `ctxn`. An access that may go is translated by the owning die's
TLB, the only place that holds a translation (R124). -/
def State.lane (s : State) (c : Crew) (core ctxn : Nat) (va : Word) (a : Acc) : Lane :=
  match s.route va with
  | .bad => .fault 4
  | .fenced d => .fenced d
  | .remote d => .remote d
  | .own _ =>
    let here : Lane := match s.xlate ctxn va a false with
      | some (.home k, _) => .home (k + va.toNat % 2 ^ 16)
      | some (.fault f, _) => .fault f
      | some (.req k, _) => .req k
      | none => .need
    match c.x.xout.find? (fun e => e.1 == vaPage va && e.2.1 == a) with
    | some (_, _, .home _) => here
    | some (_, _, .fault f) => .fault f
    | some (_, _, .req k) => .req k
    | none => if s.filterHit core ctxn (vaPage va) a then here else .need

/-- The class of a lane cause in FLCAUSE (R211). -/
def laneClass (cause : Nat) : Nat :=
  if cause = 3 then 1 else if cause = 4 ∨ cause = 5 then 2 else 3

/-- FLCAUSE of the lanes that faulted (R37, R211). -/
def flcause (l : List LaneFault) : Word :=
  l.foldl (fun w f => w ||| (BitVec.ofNat 64 (laneClass f.cause) <<< (2 * f.lane))) 0

/-- The fault that FCAUSE and FADDR report: the lowest lane of the lowest rank (R146, R211). -/
def worstFault : List LaneFault → Option LaneFault
  | [] => none
  | f :: r => match worstFault r with
    | none => some f
    | some g => if f.rank < g.rank ∨ (f.rank = g.rank ∧ f.lane ≤ g.lane) then some f else some g

/-- The lowest address of the lanes that timed out (R201). -/
def timeoutAddr (l : List LaneFault) (a : Word) : Word :=
  l.foldl (fun m f => if f.late && f.addr.toNat < m.toNat then f.addr else m) a

/-- The trap of a unit whose lanes faulted, taken after it (R212, R217). The fault record names a device
only for a PAGEFAIL and for a fenced device (R220, R137, R149). -/
def laneTrap (c : Crew) (l : List LaneFault) : Option Trap :=
  match worstFault l with
  | none => none
  | some f =>
    let addr := if f.late then timeoutAddr l f.addr else f.addr
    some
      { cause := f.cause, pc := c.r.pc, lanes := maskOf (l.map (·.lane)), addr := addr
        lcause := flcause l, resume := c.nextPc
        xdev := if f.cause = 6 then f.xdev.getD 0
          else if l.any (fun g => g.fence && g.addr == addr) then vaDev addr else 0 }

/-! ## Words that a queue names, reached through its context (R369) -/

/-- What an access of the device to such a word meets. -/
inductive DevRes where
  | ok (key : Nat)
  | fail (cause : Nat)
  | wait
  | remote (dev : Nat)
deriving DecidableEq, Repr

/-- Resolve such a word for `who`, whoever wants it. Each that waited for a page whose answer failed meets PAGEFAIL,
once. -/
def State.devWord (s : State) (who : Asker) (ctxn : Nat) (va : Word) (a : Acc) : DevRes :=
  match s.route va with
  | .bad | .fenced _ => .fail 4
  | .remote d => .remote d
  | .own _ =>
    if s.mmu.failed.contains (ctxn, va, who) then .fail 6
    else match s.xlateNow ctxn va a with
      | .fault f => .fail f
      | .req _ => .wait
      | .home k => if a = .load && s.poisoned (k + va.toNat % 2 ^ 16) 8 then .fail 15
          else .ok (k + va.toNat % 2 ^ 16)

/-- The cause in a failed answer of another device (R137, R199): ACCESS, PROT or ECC as its walk found, else
PAGEFAIL. -/
def failCause (v : Word) : Nat := if v = 4 ∨ v = 5 ∨ v = 15 then v.toNat else 6

/-- The device that a page belongs to. -/
def pageDev (page : Nat) : Nat := page / 2 ^ 38

/-- Count a malformed entry that the walk for an access has met (R128). -/
def State.noteMalformed (s : State) (ctxn : Nat) (va : Word) (a : Acc) : State :=
  match s.route va, s.xlate ctxn va a false with
  | .own _, some (.fault _, true) => s.countMalformed (pageDie (vaPage va))
  | _, _ => s

/-- A failed access of the device has been reported: a failed answer is used up, a malformed entry counted. -/
def State.devClear (s : State) (who : Asker) (ctxn : Nat) (va : Word) : State :=
  let s := if s.mmu.failed.contains (ctxn, va, who) then s else s.noteMalformed ctxn va .load
  { s with mmu := { s.mmu with failed := s.mmu.failed.filter (fun e => e != (ctxn, va, who)) } }

/-- Ask for the page, or for the host's translation, that an access of the device waits for. -/
def State.devAsk (s : State) (ctxn : Nat) (va : Word) (a : Acc) : State :=
  match s.xlate ctxn va a false with
  | none => s.askAts ctxn (vaPage va)
  | some (.req k, _) => s.joinMerge ctxn (vaPage va) k 0
  | _ => s

/-- As above for a word of R369, whose asker is told of a failed answer. -/
def State.devAskQ (s : State) (who : Asker) (ctxn : Nat) (va : Word) (a : Acc) : State :=
  let s := s.devAsk ctxn va a
  let e := (ctxn, va, who)
  { s with mmu := { s.mmu with asked := if s.mmu.asked.contains e then s.mmu.asked else s.mmu.asked ++ [e] } }

/-- A structure of the device outside every context is reached by its address alone: DIE and OFFSET
name the home (log entry 9). -/
def rawKey (va : Word) : Nat := vaDie va * 2 ^ 56 + vaOff va

end Sys2Proof.Machine
end

