-- ==== Sys2Proof/Machine/Pool.lean ====
section
/-! DEFINITION. The register pool of a core (R32 to R36): granules of 8 lines in buddy blocks, the extents of
each crew, and the compactor. Which blocks are taken is the model's choice (log entry 14); no register's value or
index depends on it. -/

namespace Sys2Proof.Machine

/-- Granules of a core's register pool (R32). -/
def poolGranules : Nat := 512

/-- The binary decomposition of a size in granules, largest extent first, as exponents (R32). -/
def decomp (g : Nat) : List Nat := [6, 5, 4, 3, 2, 1, 0].filter (bitOf g)

/-- The lowest free buddy block of 2^k granules beside the blocks in use. -/
def freeBuddy (used : List (Nat × Nat)) (k : Nat) : Option Nat :=
  ((List.range (poolGranules / 2 ^ k)).map (· * 2 ^ k)).find? (fun b =>
    used.all (fun e => decide (e.1 + 2 ^ e.2 ≤ b) || decide (b + 2 ^ k ≤ e.1)))

/-- A free block for each size of a list, if there is one. -/
def takeBuddies (used : List (Nat × Nat)) : List Nat → Option (List (Nat × Nat))
  | [] => some []
  | k :: rest => match freeBuddy used k with
    | none => none
    | some b => (takeBuddies ((b, k) :: used) rest).map ((b, k) :: ·)

/-- The extents of an allocation that a smaller one keeps in place: whole ones, then parts of the one in which it
ends. -/
def cutExtents : List (Nat × Nat) → List Nat → List (Nat × Nat)
  | _, [] => []
  | [], _ => []
  | (b, k) :: rest, k' :: ks =>
    if k' = k then (b, k) :: cutExtents rest ks
    else ((k' :: ks).foldl (fun (x : Nat × List (Nat × Nat)) j => (x.1 + 2 ^ j, x.2 ++ [(x.1, j)])) (b, [])).2

/-- The extents at the head of a list that have the sizes wanted. -/
def keptExtents : List (Nat × Nat) → List Nat → List (Nat × Nat)
  | (b, k) :: rest, k' :: ks => if k' = k then (b, k) :: keptExtents rest ks else []
  | _, _ => []

/-- The register line of the core's pool that holds crew-linear index `i` (R32): within the first extent while
`i` is below the lines of that extent, else further on in the next. -/
def lineIn : List (Nat × Nat) → Nat → Option Nat
  | [], _ => none
  | (b, k) :: rest, i => if i < 8 * 2 ^ k then some (8 * b + i) else lineIn rest (i - 8 * 2 ^ k)

/-- The register line of a crew's vector operand field (R28, R32). -/
def Crew.line (c : Crew) (f : Nat) : Option Nat := lineIn c.ext (c.vix f)

/-- The crews with registers on a core. -/
def State.poolCrews (s : State) (core : Nat) : List Crew :=
  s.crews.filter (fun c => (s.cohort? c.uid).any (fun h => h.coreOf c.idx == core) && !c.ext.isEmpty)

/-- Pack extents without gaps, the largest first: the crew, the place in its list, the block. -/
def packAll (l : List ((Nat × Nat) × Nat × Nat)) : List ((Nat × Nat) × Nat × Nat × Nat) :=
  ((sortBy (fun a b => decide (b.2.2 ≤ a.2.2)) l).foldl
    (fun (x : Nat × List ((Nat × Nat) × Nat × Nat × Nat)) e =>
      (x.1 + 2 ^ e.2.2, x.2 ++ [(e.1, e.2.1, x.1, e.2.2)])) (0, [])).2

/-- Move the extents of the crews of a core to make room (R36): each at most once, and a crew is held while one
of its own moves. Crew (u, i) comes to have extents of the sizes `ks`. -/
def State.repack (s : State) (core u i : Nat) (ks : List Nat) : State :=
  let sizes (c : Crew) : List Nat := if c.uid == u && c.idx == i then ks else c.ext.map (·.2)
  let cs := s.crews.filter (fun c => (s.cohort? c.uid).any (fun h => h.coreOf c.idx == core)
    && (!c.ext.isEmpty || (c.uid == u && c.idx == i)))
  let all := packAll (cs.flatMap (fun c => (sizes c).mapIdx (fun n k => ((c.uid, c.idx), n, k))))
  { s with crews := s.crews.map (fun c =>
      if cs.any (fun d => d.uid == c.uid && d.idx == c.idx) then
        let ext := (List.range (sizes c).length).filterMap (fun n =>
          (all.find? (fun e => e.1 == (c.uid, c.idx) && e.2.1 == n)).map (·.2.2))
        { c with
          ext := ext
          g := { c.g with moving := c.g.moving || (!c.ext.isEmpty && ext.take c.ext.length != c.ext) } }
      else c) }

/-- The compactor re-forms the allocation of a crew after its size has changed (R32, R36): in place when it
shrinks, else with free blocks beside those in use, else by moving extents of the core's crews. -/
def State.reform (s : State) (u i : Nat) : State :=
  match s.crew? u i, s.cohort? u with
  | some c, some h =>
    let core := h.coreOf i
    let ks := decomp (c.size / 8)
    if c.size / 8 ≤ (c.ext.map (fun e => 2 ^ e.2)).sum then
      s.modCrew u i (fun c => { c with ext := cutExtents c.ext ks })
    else
      let kept := keptExtents c.ext ks
      match takeBuddies ((s.poolCrews core).flatMap (·.ext)) (ks.drop kept.length) with
      | some new_ => s.modCrew u i (fun c => { c with
          ext := kept ++ new_
          g := { c.g with moving := c.g.moving || decide (kept.length < c.ext.length) } })
      | none => s.repack core u i ks
  | _, _ => s

end Sys2Proof.Machine
end

