-- ==== Sys2Proof/Machine/Graph.lean ====
section
/-! DEFINITION. Work graphs: records as words (R48), edges, queues and their banks (R52, R56 to R59), dryness and completeness
(R60, R65, R66), dependence counters (R70). -/

namespace Sys2Proof.Machine

/-! ## Records as words (R48) -/

/-- Word 0 of a record (R48). -/
def recWord0 (r : Record) : Nat :=
  r.node % 2 ^ 12 + r.aidx % 2 ^ 16 * 2 ^ 12 + r.depth % 2 ^ 6 * 2 ^ 28 + r.npay % 8 * 2 ^ 34
    + (if r.remote then 2 ^ 37 else 0) + r.srcdev % 2 ^ 10 * 2 ^ 38 + r.srccore % 2 ^ 16 * 2 ^ 48

/-- Word `w` of a record (R48): header, then payload, zero beyond NPAY. -/
def recWord (r : Record) (w : Nat) : Word :=
  if w = 0 then BitVec.ofNat 64 (recWord0 r)
  else if w = 1 then BitVec.ofNat 64 (r.seq % 2 ^ 32)
  else if w - 2 < r.npay then r.pay.getD (w - 2) 0 else 0

/-- A record from its eight words (R48). -/
def recOf (w : Nat → Word) : Record :=
  let h := (w 0).toNat
  { node := bitsOf h 11 0, aidx := bitsOf h 27 12, depth := bitsOf h 33 28, npay := bitsOf h 36 34
    remote := bitOf h 37, srcdev := bitsOf h 47 38, srccore := bitsOf h 63 48
    seq := (w 1).toNat % 2 ^ 32
    pay := (List.range (min 6 (bitsOf h 36 34))).map (fun i => w (2 + i)) }

/-- Bytes of little-endian 64-bit words. -/
def wordBytes (l : List Nat) : List Byte := l.flatMap (leBytes 8)

/-! ## Edges -/

/-- The node of a number; descriptors are read at launch (R45). -/
def Inst.node (a : Inst) (n : Nat) : Node := a.nodes.getD n {}

/-- R52: an out-edge with this node id and remote bit. -/
def Node.declared (n : Node) (tgt : Nat) (rmt : Bool) : Bool :=
  n.out.any (fun e => bitOf e 15 && bitOf e 14 == rmt && e % 4096 == tgt)

/-- Targets of the local out-edges. -/
def Node.locals (n : Node) : List Nat :=
  (n.out.filter (fun e => bitOf e 15 && !bitOf e 14)).map (· % 4096)

/-- Completion predecessors (R65). -/
def Node.preds (n : Node) : List Nat := (n.pred.filter (fun e => bitOf e 15)).map (· % 4096)

/-- Add to a set of nodes those one local edge further, `k` times. -/
def growSet (nodes : List Node) : Nat → List Nat → List Nat
  | 0, l => l
  | k + 1, l =>
    let more := (l.flatMap (fun n => (nodes.getD n {}).locals)).eraseDups.filter (fun n => !l.contains n)
    if more.isEmpty then l else growSet nodes k (l ++ more)

/-- Nodes reached from `n` through one or more local out-edges. -/
def reachFrom (nodes : List Node) (n : Nat) : List Nat :=
  growSet nodes nodes.length (nodes.getD n {}).locals.eraseDups

/-- The upstream set of R60. -/
def Inst.upstream (a : Inst) (n : Nat) : List Nat :=
  (List.range a.nodes.length).filter (fun m => (reachFrom a.nodes m).contains n)

/-- A back emit: to the node itself or to an ancestor (R52). -/
def Inst.backEmit (a : Inst) (src tgt : Nat) : Bool :=
  src == tgt || (reachFrom a.nodes tgt).contains src

/-! ## Queues -/

/-- Every record queued at an element. -/
def Queue.all (q : Queue) : List QRec := q.back ++ q.loam ++ q.silt.flatten

/-- Records that count towards CAP (R57). -/
def Queue.count (q : Queue) : Nat := q.all.length

/-- The queue of an element. -/
def Inst.queue (a : Inst) (n e : Nat) : Queue :=
  (a.queues.find? (fun q => q.node == n && q.elem == e)).getD { node := n, elem := e }

/-- Store a queue back. -/
def Inst.putQueue (a : Inst) (q : Queue) : Inst :=
  { a with queues :=
      if a.queues.any (fun p => p.node == q.node && p.elem == q.elem)
      then a.queues.map (fun p => if p.node == q.node && p.elem == q.elem then q else p)
      else a.queues ++ [q] }

/-- Every record of an instance that occupies a Loam slot or a Silt place (R57, R59). -/
def Inst.stored (a : Inst) : List QRec := a.queues.flatMap Queue.all ++ a.held

/-- The die of an element's queue (R56). -/
def queueDie (n e : Nat) : Nat := (n + e) % 2

/-- The Loam bank of an element: 12 × die + cluster (R56). -/
def bankOf (n e : Nat) : Nat := 12 * ((n + e) % 2) + (n + e) / 2 % 12

/-- Records in a Loam bank (R58, R59). -/
def State.bankCount (s : State) (b : Nat) : Nat :=
  (s.insts.flatMap (fun a => a.stored.filter (fun q => q.blk.isNone && bankOf q.r.node q.r.aidx == b))).length

/-- Slots of a Loam bank (R5). -/
def loamSlots : Nat := 32768

/-- The lowest free Silt block (R57): it lies among the first k + 1 when k records are stored. -/
def Inst.freeBlock (a : Inst) : Option Nat :=
  (List.range (min a.a.siltBlocks (a.stored.length + 1))).find? (fun b => !(a.stored.any (fun q => q.blk == some b)))

/-! ### Places set aside for other devices (R72) -/

/-- The grants of places at an element. -/
def State.grantsAt (s : State) (a : Inst) (n e : Nat) : List Grant :=
  s.fab.grants.filter (fun g => !g.out && g.tag == a.l.tag && g.node == n && g.elem == e)

/-- Places set aside for other devices at an element. -/
def State.granted (s : State) (a : Inst) (n e : Nat) : Nat := ((s.grantsAt a n e).map (·.n)).sum

/-- The places of a grant lie in the Silt ring: they were set aside there, or the queue has a Silt part by now, behind
which its records must go (R57; log entry 98). -/
def State.inSilt (s : State) (g : Grant) : Bool :=
  g.silt || s.insts.any (fun a => a.l.tag == g.tag && !(a.queue g.node g.elem).silt.isEmpty)

/-- Places of a Loam bank set aside. -/
def State.bankGranted (s : State) (b : Nat) : Nat :=
  ((s.fab.grants.filter (fun g => !g.out && bankOf g.node g.elem == b && !s.inSilt g)).map (·.n)).sum

/-- Places of the Loam bank set aside for an element. -/
def State.loamGranted (s : State) (a : Inst) (n e : Nat) : Nat :=
  (((s.grantsAt a n e).filter (fun g => !s.inSilt g)).map (·.n)).sum

/-- Room in the last block of a queue's Silt part. -/
def Inst.lastRoom (a : Inst) (q : Queue) : Nat := match q.silt.getLast? with
  | none => 0
  | some blk => 64 - (a.stored.filter (fun y => y.blk == blk.head?.bind (·.blk))).length

/-- Silt blocks that hold no record. -/
def Inst.freeBlocks (a : Inst) : Nat := a.a.siltBlocks - ((a.stored.filterMap (·.blk)).eraseDups).length

/-- Silt blocks that `n` places need beside the room of a last block. -/
def blocksFor (n room : Nat) : Nat := (n - room + 63) / 64

/-- Silt blocks set aside for the elements of an instance other than (n, e). -/
def State.siltOwed (s : State) (a : Inst) (n e : Nat) : Nat :=
  let gs := s.fab.grants.filter (fun g => !g.out && g.tag == a.l.tag && s.inSilt g && !(g.node == n && g.elem == e))
  (((gs.map (fun g => (g.node, g.elem))).eraseDups).map (fun p =>
    blocksFor (((gs.filter (fun g => g.node == p.1 && g.elem == p.2)).map (·.n)).sum) (a.lastRoom (a.queue p.1 p.2)))).sum

/-- Places that an element may take in the Silt ring beside those set aside there, `mine` of them its own. -/
def State.siltRoom (s : State) (a : Inst) (n e mine : Nat) : Nat :=
  a.lastRoom (a.queue n e) + 64 * (a.freeBlocks - s.siltOwed a n e) - mine

/-- The lowest free place of a Silt block. -/
def Inst.freePos (a : Inst) (b : Nat) : Nat :=
  ((List.range 64).find? (fun p => !(a.stored.any (fun q => q.blk == some b && q.pos == p)))).getD 0

/-- The VA of a record's place in the instance's Silt ring (R57). -/
def Inst.siltAt (a : Inst) (x : QRec) : Word :=
  a.l.siltVa + BitVec.ofNat 64 (4096 * x.blk.getD 0 + 64 * x.pos)

/-- Write a record that goes to the Silt part to its place in the ring (R56, R57; log entry 31). -/
def State.siltWrite (s : State) (slot : Nat) (x : QRec) : State :=
  match s.inst? slot with
  | some a => if x.blk.isSome then
      s.writeKey (rawKey (a.siltAt x)) (wordBytes ((List.range 8).map (fun w => (recWord x.r w).toNat))) else s
  | none => s

/-- Append a record to a queue's Silt part (case 3 of R57), if it has room there. -/
def Inst.siltPlace (a : Inst) (q : Queue) (x : QRec) : Option Queue :=
  match q.silt.getLast? with
  | some blk =>
    let b := (blk.head?.bind (·.blk)).getD 0
    if (a.stored.filter (fun y => y.blk == some b)).length < 64 then
      some { q with silt := q.silt.dropLast ++ [blk ++ [{ x with blk := some b, pos := a.freePos b }]] }
    else a.freeBlock.map (fun f => { q with silt := q.silt ++ [[{ x with blk := some f }]] })
  | none => a.freeBlock.map (fun f => { q with silt := [[{ x with blk := some f }]] })

/-- R57: place an arriving record; none when it blocks. `capped` applies case 1, and leaves alone the places that are
set aside (R72); a record that comes under a grant takes one of those. The record takes its SEQ here (R49). -/
def State.enqueue? (s : State) (slot : Nat) (r : Record) (capped : Bool) : Option State :=
  match s.inst? slot with
  | none => none
  | some a =>
    let q := a.queue r.node r.aidx
    let x : QRec := { id := s.fresh.id, r := { r with seq := q.seq % 2 ^ 32 } }
    let q1 := { q with seq := q.seq + 1, last := s.clk.cycle, linger := false }
    let placed : Option Queue :=
      if capped && decide ((a.node r.node).cap ≤ q.count + s.granted a r.node r.aidx) then none
      else if q.silt.isEmpty && decide (s.bankCount (bankOf r.node r.aidx) + s.bankGranted (bankOf r.node r.aidx)
          - (if capped then 0 else s.loamGranted a r.node r.aidx) < loamSlots) then
        some { q1 with loam := q1.loam ++ [x] }
      else if capped && s.siltRoom a r.node r.aidx (s.granted a r.node r.aidx) = 0 then none
      else a.siltPlace q1 x
    placed.map (fun q2 =>
      let s1 := (s.bumpId).modInst slot (fun a => a.putQueue q2)
      match (q2.silt.getLast?.bind List.getLast?).filter (fun y => y.id == x.id) with
      | some y => s1.siltWrite slot y
      | none => s1)

/-- Take `k` records from the head of a queue (R59): re-queued ones first, then Loam, then Silt. -/
def Queue.take (q : Queue) (k : Nat) : List QRec × Queue :=
  let b := q.back.take k
  let k1 := k - b.length
  let l := q.loam.take k1
  let k2 := k1 - l.length
  let rec go : List (List QRec) → Nat → List QRec × List (List QRec)
    | [], _ => ([], [])
    | blk :: rest, n =>
      if n = 0 then ([], blk :: rest)
      else if n < blk.length then (blk.take n, blk.drop n :: rest)
      else
        let (x, y) := go rest (n - blk.length)
        (blk ++ x, y)
  let (x, y) := go q.silt k2
  (b ++ l ++ x, { q with back := q.back.drop k, loam := q.loam.drop k1, silt := y })

/-! ## Life of nodes -/

/-- The live cohorts of an instance (R60, R76); an aborted one is not live. -/
def State.live (s : State) (a : Inst) : List Cohort :=
  s.cohorts.filter (fun h => h.serial == a.l.serial && h.ev != .dead)

/-- A record is queued at some element of the node, or is still yielding cohorts (R60). -/
def Inst.hasRecord (a : Inst) (n : Nat) : Bool :=
  a.queues.any (fun q => q.node == n && decide (0 < q.count)) || a.grids.any (fun g => g.node == n)

/-- R60. -/
def State.dry (s : State) (a : Inst) (n : Nat) : Bool :=
  let u := a.upstream n
  let live := s.live a
  u.all (fun m => m == n || (!a.hasRecord m && !(live.any (fun h => h.node == m))))
    && (!(u.contains n) || !(live.any (fun h => h.node == n)))
    && !(a.ctrs.any (fun k => k.r.node == n || u.contains k.r.node))
    && (!(a.node n).ingress || a.ctrs.isEmpty)

/-- R65. -/
def State.complete (s : State) (a : Inst) (n : Nat) : Bool :=
  s.dry a n && !a.hasRecord n && !((s.live a).any (fun h => h.node == n))

/-- R66: every crew has executed HINTSUCC or EXIT. -/
def State.hinted (s : State) (h : Cohort) : Bool :=
  (s.crewsOf h.uid).all (fun c => c.g.hinted || c.g.exited)

/-- The completion edges of a node allow an offer (R65, R66). -/
def State.edgesAllow (s : State) (a : Inst) (n : Nat) : Bool :=
  (a.node n).preds.all (fun p =>
    if (a.node n).early then
      s.dry a p && !a.hasRecord p && (s.live a).all (fun h => h.node != p || s.hinted h)
    else s.complete a p)

/-- A store to another device (R199); one to host memory (key space 2) also has a timeout (R209). -/
def Store.far (e : Store) : Bool := e.remote.isSome && decide (e.key / 2 ^ 56 ≠ 2)

/-- A release of this scope covers a store (R112). -/
def Store.covered (e : Store) (scope : Nat) : Bool :=
  match scope with
  | 1 => false
  | 2 => !e.far && decide (e.key / 2 ^ 56 ≠ 2)
  | 3 => !e.far
  | _ => true

/-- WAITPRED's condition (R67): predecessors complete, and their cohorts' stores performed at their
homes. A retired cohort has made its release; what an aborted one has left on its way or in the side log counts. -/
def State.predsDone (s : State) (a : Inst) (n : Nat) : Bool :=
  let mine (serial node : Nat) : Bool := serial == a.l.serial && (a.node n).preds.contains node
  (a.node n).preds.all (fun p => s.complete a p)
    && s.mem.stores.all (fun e => !mine e.serial e.node || e.nt || !e.covered 3)
    && s.mem.log.all (fun e => !mine e.serial e.node || e.nt)

/-! ## Order of blocked enqueues -/

/-- A crew of the instance, or a pending counter, blocked on the element before order number `seq`
(R57). -/
def State.waitsAhead (s : State) (a : Inst) (n e seq : Nat) : Bool :=
  s.crews.any (fun d => d.w.kind == .emit n e && decide (d.w.seq < seq)
      && (match s.cohort? d.uid with | some g => g.serial == a.l.serial | none => false))
    || a.ctrs.any (fun k => k.pending && k.r.node == n && k.r.aidx == e && decide (k.seq < seq))

/-! ## Dependence counters -/

/-- Fire a counter (R70): its record is enqueued and the counter disarmed, or it becomes pending. -/
def State.fire (s : State) (slot n : Nat) : State :=
  match s.inst? slot with
  | none => s
  | some a =>
    match a.ctrs.find? (fun k => k.n == n) with
    | none => s
    | some k =>
      let seq := if k.pending then k.seq else s.fresh.seq
      let room := if s.waitsAhead a k.r.node k.r.aidx seq then none else s.enqueue? slot k.r true
      match room with
      | some s1 => s1.modInst slot (fun a => { a with ctrs := a.ctrs.filter (fun j => j.n != n) })
      | none => s.bumpSeq.modInst slot (fun a => { a with
          ctrs := a.ctrs.map (fun j => if j.n == n then { j with pending := true, seq := seq } else j) })

/-- Decrement a counter (R69, R302): no effect on a disarmed or pending one. -/
def State.decrement (s : State) (slot n v : Nat) : State :=
  match (s.inst? slot).bind (fun a => a.ctrs.find? (fun k => k.n == n)) with
  | none => s
  | some k =>
    if k.pending then s
    else
      let s1 := s.modInst slot (fun a => { a with ctrs := a.ctrs.map (fun j =>
        if j.n == n then { j with remaining := j.remaining - v } else j) })
      if k.remaining - v ≤ 0 then s1.fire slot n else s1

end Sys2Proof.Machine
end

