-- ==== Sys2Proof/Machine/Image.lean ====
section
/-! DEFINITION. The save image (R224 to R226, R368). -/

namespace Sys2Proof.Machine

/-- 64 bits of a list of flags, from bit 64 k on. -/
def bitWord (f : Nat → Bool) (k : Nat) : Nat :=
  (List.range 64).foldl (fun n i => if f (64 * k + i) then n + 2 ^ i else n) 0

/-- A ring definition in its 8-byte layout (R225). -/
def ringWord : Option Ring → Nat
  | none => 0
  | some r => 2 ^ 63 + (r.count - 1) * 2 ^ 56 + (r.slotKib - 1) * 2 ^ 48 + r.tag * 2 ^ 20 + r.base

/-- The header of a save image (R368). -/
def imageHeader (h : Cohort) : List Nat :=
  let arr (b w : Nat) : Nat := match h.bars.find? (fun x => x.n == b) with
    | none => 0
    | some x => bitWord (fun i => x.arr.contains i) w
  let mask (b : Nat) : Nat := match h.bars.find? (fun x => x.n == b) with
    | none => 0
    | some x => x.mask
  let maskWord (k : Nat) : Nat := (List.range 8).foldl (fun n i => n + mask (8 * k + i) * 2 ^ (8 * i)) 0
  let ring (side n : Nat) : Nat := ringWord (SMap.get none h.rings (8 * side + n))
  [h.node + h.elem * 2 ^ 12 + h.sh.ncrew * 2 ^ 28 + h.sh.tiles * 2 ^ 36 + h.sh.kib * 2 ^ 43
      + (if h.sh.span then 2 ^ 54 else 0),
    (cohWord h.x h.y h.z).toNat, h.run, h.recs.length + h.sh.free * 2 ^ 16, 0, 0, 0, 0]
    ++ (List.range 16).flatMap (fun b => [arr b 0, arr b 1])
    ++ [maskWord 0, maskWord 1] ++ List.replicate 6 0
    ++ (List.range 8).map (ring 0) ++ (List.range 8).map (ring 1)

/-- WKIND and the wake operands of a crew's wait (R224). The table names none for the page-fault holds of R110, R135 and
R136: 9 without operands, the model's choice (log entry 115). -/
def wakeOf (c : Crew) : Nat × Word × Word :=
  if c.gone then (0, 0, 0)
  else match c.w.kind with
    | .barrier b => (1, BitVec.ofNat 64 b, 0)
    | .emit n e => (2, BitVec.ofNat 64 (n + e * 2 ^ 12), 0)
    | .emitRemote => (3, 0, 0)
    | .sp off _ => (4, BitVec.ofNat 64 off, 0)
    | .waitaSp _ off v => (4, BitVec.ofNat 64 off, v)
    | .waita _ va v => (5, va, v)
    | .waitpred => (6, 0, 0)
    | .regclm n => (7, BitVec.ofNat 64 n, 0)
    | .page p => (8, pageVa p, 0)
    | .none | .logFull | .logPage _ | .release | .remote | .yield => (9, 0, 0)

/-- The control block of a crew (R226), with its wake condition. -/
def controlBlock (c : Crew) (wake : Nat × Word × Word) : List Nat :=
  let n (k : Nat) : Nat := (c.nfl k).toNat
  [c.r.pc.toNat, c.m.om.toNat + c.m.xm.toNat * 2 ^ 32, c.g.ccr.toNat,
    c.m.msd + c.g.wbase * 2 ^ 8 + c.g.skid * 2 ^ 16 + (if c.g.hnd then 2 ^ 24 else 0)
      + (if c.g.hinted then 2 ^ 25 else 0) + c.g.xsr * 2 ^ 32 + c.g.xdev * 2 ^ 38,
    n 0 + n 1 * 2 ^ 32, n 2 + n 3 * 2 ^ 32, n 4 + n 5 * 2 ^ 32, n 6,
    c.g.seed.toNat, c.g.ctr.toNat, wake.1, wake.2.1.toNat, wake.2.2.toNat, c.w.done.toNat, c.size,
    c.f.pc.toNat, c.f.cause, c.f.lanes.toNat, c.f.addr.toNat, c.f.lcause.toNat,
    c.h.pc.toNat, c.h.msd + c.h.xm.toNat * 2 ^ 32] ++ List.replicate 10 0

/-- The block of a crew (R225). -/
def crewBlock (c : Crew) (wake : Nat × Word × Word) : List Byte :=
  wordBytes (controlBlock c wake)
    ++ ((List.range 32).flatMap (fun i => leBytes 4 (SMap.get 0 c.m.stack i).toNat))
    ++ ((List.range 16).flatMap (fun i => leBytes 4 (c.pr i).toNat))
    ++ wordBytes ((List.range 192).map (fun i => (c.sr i).toNat)) ++ List.replicate 64 0
    ++ wordBytes ((List.range (32 * c.size)).map (fun k => (SMap.get 0 c.r.v k).toNat))

/-- Scratchpad and tile sections (R225). -/
def memSections (h : Cohort) : List Byte :=
  let words := 128 * h.sh.kib
  let tile (k : Nat) : List Byte :=
    ((List.range 1024).flatMap (fun i => leBytes 4 (SMap.get 0 h.tl.e (1024 * k + i)).toNat))
      ++ wordBytes ((List.range 16).map (bitWord (fun i => SMap.get false h.tl.ls (1024 * k + i))))
      ++ wordBytes [SMap.get 0 h.tl.st k] ++ List.replicate 120 0
  wordBytes ((List.range words).map (fun i => (SMap.get 0 h.sp.w i).toNat))
    ++ wordBytes ((List.range (words / 64)).map (bitWord (fun i => SMap.get false h.sp.full i)))
    ++ (List.range h.sh.tiles).flatMap tile
    ++ (if h.sh.span then (List.range h.sh.tiles).flatMap (fun k => tile (64 + k)) else [])

/-- The save image of a cohort; a halt image has WKIND 0 throughout (R221, R225). -/
def saveImage (h : Cohort) (cs : List Crew) (halt : Bool) : List Byte :=
  wordBytes (imageHeader h)
    ++ wordBytes (h.recs.flatMap (fun q => (List.range 8).map (fun w => (recWord q.r w).toNat)))
    ++ cs.flatMap (fun c => crewBlock c (if halt then (0, 0, 0) else wakeOf c))
    ++ memSections h

/-- Bytes of the largest save image a node allows (R236): every register of its budget allocated. -/
def imageBytes (n : Node) : Nat :=
  512 + 64 * (if n.kind = 0 then 32 * n.ncrew else 1) + 2048 * n.ncrew
    + 256 * min (8 * n.budget) (512 * n.ncrew)
    + 1040 * n.scratch + 4352 * n.tiles * (if 64 < n.ncrew then 2 else 1)

end Sys2Proof.Machine
end

