-- ==== Sys2Proof/Machine/Ops.lean ====
section
/-! DEFINITION. The shared operations of the instructions: the end of a unit, releases and acquires
(R110 to R116), taking a trap and returning from one (R210 to R221, R227), the abort of a cohort and
the halt of an instance (R219, R245, R78), retirement (R306). -/

namespace Sys2Proof.Machine

/-! ## Executing for the current crew -/

/-- Run an operation for the crew and cohort that `cur` names. -/
def crewOp (f : State → Crew → Cohort → State) (s : State) : Host.Outcome State Fault Refusal :=
  match s.crew? s.cur.1 s.cur.2, s.cohort? s.cur.1 with
  | some c, some h => .next (f s c h)
  | _, _ => .fault .noCrew

/-! ## Scratchpad and engine items -/

/-- Read a scratchpad word by its byte offset (R98). -/
def Cohort.sp64 (h : Cohort) (off : Nat) : Word := SMap.get 0 h.sp.w (off / 8)

/-- The key of a scratchpad byte of the cohort, by which an error poisons its line (R244; log entry 77). -/
def Cohort.spKey (h : Cohort) (off : Nat) : Nat := 8 * 2 ^ 56 + h.uid * 2 ^ 20 + off

/-- The key of a weight-buffer byte of a core, by which an error poisons its line (R244; log entry 77). -/
def wbKey (core off : Nat) : Nat := 7 * 2 ^ 56 + core * 2 ^ 19 + off

/-- Whether a scratchpad word is full (R98). -/
def Cohort.full (h : Cohort) (off : Nat) : Bool := SMap.get false h.sp.full (off / 8)

/-- Write a scratchpad word. -/
def Cohort.setSp (h : Cohort) (off : Nat) (v : Word) : Cohort :=
  { h with sp := { h.sp with w := SMap.set 0 h.sp.w (off / 8) v } }

/-- Set a full/empty bit. -/
def Cohort.setFull (h : Cohort) (off : Nat) (b : Bool) : Cohort :=
  { h with sp := { h.sp with full := SMap.set false h.sp.full (off / 8) b } }

/-- An engine completion or WDQ write: the value, and full (R99). -/
def State.completeWord (s : State) (uid off : Nat) (v : Word) : State :=
  s.modCohort uid (fun h => (h.setSp off v).setFull off true)

/-- The tag an item needs before it goes on, and the state it needs (R182): a task a full tag at the
start of a slot, a job an empty one. -/
def Item.tag (i : Item) : Option (Nat × Bool) :=
  match i.ring with
  | none => none
  | some r =>
    if i.done then none
    else if i.task then
      let slot := bitsOf (i.words.getD 1 0).toNat 13 8
      if i.pos % r.slotKib = 0 then some (r.tag + 8 * ((slot + i.pos / r.slotKib) % r.count), true)
      else none
    else
      let slot := bitsOf (i.words.getD 2 0).toNat 13 8
      if i.pos % (1024 * r.slotKib) = 0 then
        some (r.tag + 8 * ((slot + i.pos / (1024 * r.slotKib)) % r.count), false)
      else none

/-- An item waits for a ring tag (R182, R194). -/
def Item.tagWait (i : Item) (h : Cohort) : Bool :=
  match i.tag with
  | none => false
  | some (off, need) => h.full off != need

/-- The items of a cohort in flight (R176). -/
def State.itemsOf (s : State) (uid : Nat) : List Item := s.eng.items.filter (fun i => i.uid == uid)

/-- R194: of an aborting cohort, items that have not started or wait for a tag are discarded; the
others run to their end. -/
def State.dropItems (s : State) (h : Cohort) : State :=
  { s with eng := { s.eng with
      items := (s.eng.items.filter (fun i =>
        i.uid != h.uid || ((decide (0 < i.pos) || decide (0 < i.sub) || i.done) && !i.tagWait h))).map
        (fun i => if i.uid == h.uid then { i with aborted := true } else i) } }

/-- A cohort's storage is still in use by an item, a SHINV or a WDQ (R194, R322, R364). -/
def State.storageBusy (s : State) (uid : Nat) : Bool :=
  s.eng.items.any (fun i => i.uid == uid) || s.eng.wdqs.any (fun w => w.uid == uid)
    || s.mmu.shinvs.any (fun v => match v.root with | some (u, _, _) => u == uid | none => false)

/-- Of an aborted cohort, items that wait for ring tags which nothing of it will turn any longer are discarded (R194): its
crews are gone, and each item that is left waits for a tag. -/
def State.dropStuck (s : State) (uid : Nat) : State :=
  match s.cohort? uid with
  | none => s
  | some h =>
    if h.ev = .dead && (s.itemsOf uid).all (fun i => i.tagWait h) && s.eng.wdqs.all (fun w => w.uid != uid)
        && s.mmu.shinvs.all (fun v => v.root.all (fun r => r.1 != uid)) then
      { s with eng := { s.eng with items := s.eng.items.filter (fun i => i.uid != uid) } }
    else s

/-- Remove an aborted cohort whose storage is no longer in use (R194, R219). -/
def State.sweepDead (s : State) (uid : Nat) : State :=
  match s.cohort? uid with
  | some h => if h.ev = .dead && !s.storageBusy uid then
      { s with cohorts := s.cohorts.filter (fun x => x.uid != uid) } else s
  | none => s

/-! ## Fault records -/

/-- Word `k` of a QSB (R228), reached by its address (log entry 9). What a reserved field holds does nothing: the
model's choice (log entry 90). -/
def State.qsbWord (s : State) (qsb : Word) (k : Nat) : Nat := (s.readKey (rawKey qsb + 8 * k) 8).toNat

/-- Write word `k` of a QSB. -/
def State.setQsbWord (s : State) (qsb : Word) (k v : Nat) : State :=
  s.writeKey (rawKey qsb + 8 * k) (leBytes 8 v)

/-- The context of a queue (R228). -/
def State.qsbCtx (s : State) (qsb : Word) : Nat := bitsOf (s.qsbWord qsb 2) 31 16

/-- The ring entry that the next fault record goes to (R228, R231). An FQ that is not aligned, or an FQLOG2 out of its
range, is used as it stands: the model's choice (log entry 116). -/
def State.faultVa (s : State) (qsb : Word) : Word :=
  BitVec.ofNat 64 (s.qsbWord qsb 5
    + 64 * (bitsOf (s.qsbWord qsb 6) 63 32 % 2 ^ bitsOf (s.qsbWord qsb 6) 4 0))

/-- FQW is incremented (R228). -/
def State.bumpFqw (s : State) (qsb : Word) : State :=
  let w := s.qsbWord qsb 6
  s.setQsbWord qsb 6 (w % 2 ^ 32 + (bitsOf w 63 32 + 1) % 2 ^ 32 * 2 ^ 32)

/-- A fault record of the queue is on its way to a ring on another device: FQW still names its entry. -/
def State.faultSending (s : State) (qsb : Word) : Bool :=
  s.mem.remote.any (fun r => r.who == .queue qsb && (r.n == 64 || r.n == 63))

/-- A fault record is dropped (R369): core 4 counts it, and core 7 reports the count. -/
def State.dropFault (s : State) : State :=
  ({ s with host := { s.host with fw := { s.host.fw with dropped := s.host.fw.dropped + 1 } } }).send
    (.report 7 (0x100 + s.host.fw.dropped + 1))

/-- The fault record of a halt image has been written or dropped: in an instance that goes on, its save slot is
free again (R236). -/
def State.imageDone (s : State) (qsb image : Word) : State :=
  if image = 0 then s
  else { s with insts := s.insts.map (fun a => if a.l.qsb != qsb then a else
    { a with a := { a.a with slotsUsed := a.a.slotsUsed.filter (fun k =>
        a.a.saveVa + BitVec.ofNat 64 (k * a.a.slotSize) != image) } }) }

/-- The words of a fault record for a ring in host memory go out with the PASID of their context (R207). -/
def State.tellHost (s : State) (ctx key : Nat) (ws : List Word) : State :=
  if key / 2 ^ 56 ≠ 2 then s
  else (List.range 8).foldl (fun s i => s.send (.hostRequest (s.pasidOf ctx) s.fresh.id (key % 2 ^ 56 + 8 * i)
    (.store 8 [ws.getD i 0]))) s.bumpId

/-- Write a fault record to the fault ring of a queue (R220, R228, R231, R369): a record whose write
fails is dropped and counted, one whose page is being asked for waits, and one for a ring on another
device is sent there, when the one before it has ended. -/
def State.writeFault (s : State) (qsb : Word) (ws : List Word) : State :=
  let va := s.faultVa qsb
  match s.devWord (.queue qsb) (s.qsbCtx qsb) va .store with
  | .ok k => (((s.tellHost (s.qsbCtx qsb) k ws).writeKey k (wordBytes (ws.map (·.toNat)))).bumpFqw qsb).imageDone
      qsb (ws.getD 7 0)
  | .fail _ =>
    ((s.devClear (.queue qsb) (s.qsbCtx qsb) va).dropFault).imageDone qsb (ws.getD 7 0)
  | .wait =>
    let s := s.devAsk (s.qsbCtx qsb) va .store
    { s with host := { s.host with faultQ := s.host.faultQ ++ [(qsb, ws)] } }
  | .remote d =>
    if s.faultSending qsb then { s with host := { s.host with faultQ := s.host.faultQ ++ [(qsb, ws)] } }
    else
      let rid := s.fresh.id
      let port := s.accessPort 0 d va
      let ctx := s.qsbCtx qsb
      let s := (List.range 8).foldl (fun s i => s.send (.request d (port.getD 0) rid ctx (s.genOf ctx)
        (va + BitVec.ofNat 64 (8 * i)) (.store 8 [ws.getD i 0]))) s.bumpId
      let r : Remote :=
        { rid := rid, who := .queue qsb, va := va, n := 64, sent := s.clk.ns, port := port
          val := ws.getD 7 0 }
      { s with mem := { s.mem with remote := s.mem.remote ++ [r] } }

/-- Word 0 of a fault record (R220). -/
def faultWord0 (inst node elem crew : Nat) (hnd req : Bool) (code cause : Nat) : Word :=
  BitVec.ofNat 64 (cause + (if req then 2 ^ 5 else 0) + code % 256 * 2 ^ 8
    + (if hnd then 2 ^ 16 else 0) + crew * 2 ^ 17 + elem * 2 ^ 24 + node * 2 ^ 40 + inst * 2 ^ 52)

/-- A fault record with no placed cohort (R221, R78, R238, R369). -/
def State.bareFault (s : State) (inst node cause code : Nat) (fpc faddr : Word) (xdev : Nat) :
    List Word :=
  [faultWord0 inst node 0 0 false false code cause, fpc, faddr, 0, 0,
    BitVec.ofNat 64 (s.devid * 2 ^ 54 + xdev * 2 ^ 36), BitVec.ofNat 64 s.clk.ns, 0]

/-! ## Halting an instance (R219, R78) -/

/-- End the cohorts of a launch: their crews go at once, their storage when no item uses it (R194). -/
def State.endCohorts (s : State) (serial : Nat) : State :=
  let mine := s.cohorts.filter (fun h => h.serial == serial)
  let s := mine.foldl (fun s h => s.dropItems h) s
  let uids := mine.map (·.uid)
  let s := { s with
    crews := s.crews.filter (fun c => !uids.contains c.uid)
    mem := { s.mem with
      loads := s.mem.loads.filter (fun (l : Load) => !uids.contains l.uid)
      stores := s.mem.stores.map (fun (e : Store) => if uids.contains e.uid then { e with aborted := true } else e)
      log := s.mem.log.map (fun (e : LogEntry) => if uids.contains e.uid then { e with aborted := true } else e) } }
  uids.foldl (fun s u => (s.modCohort u (fun h => { h with ev := .dead })).sweepDead u) s

/-- Remove an instance from the device, recording how its launch ended (R234, R219). -/
def State.dropInst (s : State) (slot outcome : Nat) : State :=
  match s.inst? slot with
  | none => s
  | some a => { s with
      insts := s.insts.filter (fun x => x.slot != slot)
      host := { s.host with past := s.host.past ++ [⟨a.l.serial, a.l.proc, a.l.qsb, outcome⟩] }
      sched := { s.sched with
        resv := s.sched.resv.filter (fun r => r.key.1 != slot)
        asks := s.sched.asks.filter (fun r => r.1 != slot)
        claims := s.sched.claims.filter (fun c => c.key.1 != slot) } }

/-- Halt an instance and every instance that waits on it (R219, R78): `k` bounds the chain. The
dependants' records hold the launch serial of the instance they waited on. Several that wait on one instance halt in the
order in which they were launched, each with its own chain before the next: the model's choice (log entry 107). -/
def State.haltInst (s : State) (slot : Nat) : Nat → State
  | 0 => s
  | k + 1 =>
    match s.inst? slot with
    | none => s
    | some a =>
      let s := (s.endCohorts a.l.serial).dropInst slot 2
      let deps := s.insts.filter (fun x => x.l.dep == some a.l.serial)
      deps.foldl (fun s x =>
        let rec_ := s.bareFault x.slot 0 0 0xFE (BitVec.ofNat 64 a.l.serial) 0 0
        let rec_ := rec_.set 6 0
        (s.writeFault x.l.qsb rec_).haltInst x.slot k) s

/-- Halt with one fault record of its own. An instance that has completed, whose completion word is on its way, halts
no more (R74; log entry 108). -/
def State.haltWith (s : State) (slot : Nat) (ws : List Word) : State :=
  match s.inst? slot with
  | none => s
  | some a => if a.l.ending then s else (s.writeFault a.l.qsb ws).haltInst slot (s.insts.length + 1)

/-! ## Abort of a cohort (R219 to R221, R245) -/

/-- The lowest free save slot (R236). -/
def Inst.freeSlot (a : Inst) : Option Nat :=
  (List.range (min a.a.slots (a.a.slotsUsed.length + 1))).find? (fun k => !a.a.slotsUsed.contains k)

/-- The VA of a save slot (R236). -/
def Inst.slotVa (a : Inst) (k : Nat) : Word := a.a.saveVa + BitVec.ofNat 64 (k * a.a.slotSize)

/-- The fault record of an aborted cohort (R220). -/
def State.cohortFault (s : State) (a : Inst) (h : Cohort) (k : Halt) (req : Bool) (image : Word) :
    List Word :=
  let pend := (s.crewsOf h.uid).filter (fun c => c.idx != k.crew && !c.pend.isEmpty)
  let core := h.coreOf k.crew
  [faultWord0 a.slot h.node h.elem k.crew k.hnd req k.trap.code k.trap.cause, k.trap.pc, k.trap.addr,
    BitVec.ofNat 64 (k.trap.lanes.toNat + k.xm.toNat * 2 ^ 32), k.trap.lcause,
    BitVec.ofNat 64 (k.msd + pend.length * 2 ^ 8 + k.trap.xdev * 2 ^ 36 + core * 2 ^ 46
      + s.devid * 2 ^ 54), BitVec.ofNat 64 s.clk.ns, image]

/-- One re-queueing more for a record of a cohort, wherever a copy of it stands (R245): the count is the record's. -/
def Cohort.recount (h : Cohort) (x : QRec) : QRec :=
  if h.recs.any (fun y => y.id == x.id) then { x with req := x.req + 1 } else x

/-- The records of a cohort go back to the head of their element (R245), but for one that another cohort of its grid
has sent back there. -/
def Inst.requeue (a : Inst) (h : Cohort) : Inst :=
  let q := a.queue h.node h.elem
  let go := h.recs.filter (fun x => !(q.back.any (fun y => y.id == x.id)))
  { a.putQueue { q with back := (go ++ q.back).map h.recount } with
    held := a.held.filter (fun x => !(h.recs.any (fun y => y.id == x.id)))
    grids := a.grids.map (fun g => { g with record := h.recount g.record }) }

/-- The cohort leaves: its lane-private area, its share of a tile space and its held records are
freed (R235, R195, R245). -/
def State.freeCohort (s : State) (h : Cohort) : State :=
  s.modInst h.inst (fun a => if a.l.serial != h.serial then a else
    { a with
      a := { a.a with lpUsed := a.a.lpUsed.filter (fun x => h.lp != some x) }
      held := a.held.filter (fun x => !(h.recs.any (fun y => y.id == x.id))
        || s.cohorts.any (fun g => g.uid != h.uid && g.serial == h.serial && g.recs.any (fun y => y.id == x.id))
        || a.grids.any (fun g => g.record.id == x.id))
      spaces := (a.spaces.map (fun p => if h.space == some p.id then { p with left := p.left - 1 } else p)).filter
        (fun p => decide (0 < p.left)) })

/-- Every crew stands at its freeze point or has exited: the abort of R219. -/
def State.abortCohort (s : State) (h : Cohort) (k : Halt) : State :=
  match s.inst? h.inst with
  | none => s
  | some a =>
    let replay := (a.node h.node).replay && !h.effects && h.recs.all (fun x => decide (x.req < 2))
    let slot := if k.image then a.freeSlot else none
    let s := match slot with
      | some n => (s.writeKey (rawKey (a.slotVa n)) (saveImage h (s.crewsOf h.uid) true)).modInst a.slot
          (fun b => { b with a := { b.a with slotsUsed := n :: b.a.slotsUsed } })
      | none => s
    let image := match slot with
      | some n => a.slotVa n
      | none => 0
    let s := (s.dropItems h).writeFault a.l.qsb (s.cohortFault a h k replay image)
    if replay then
      let s := s.freeCohort h
      let s := s.modInst a.slot (fun a => a.requeue h)
      let s := { s with
        cohorts := s.cohorts.map (fun (g : Cohort) => if g.serial == h.serial then { g with recs := g.recs.map h.recount } else g)
        crews := s.crews.filter (fun c => c.uid != h.uid)
        mem := { s.mem with
          loads := s.mem.loads.filter (fun (l : Load) => l.uid != h.uid)
          stores := s.mem.stores.map (fun (e : Store) => if e.uid == h.uid then { e with aborted := true } else e)
          log := s.mem.log.map (fun (e : LogEntry) => if e.uid == h.uid then { e with aborted := true } else e) } }
      (s.modCohort h.uid (fun x => { x with ev := .dead, recs := [] })).sweepDead h.uid
    else s.haltInst a.slot (s.insts.length + 1)

/-- A crew no longer issues for the halt in progress (R214). -/
def Crew.stopped (c : Crew) : Bool := c.g.exited || c.g.frozen

/-- The halt broadcast (R214): a crew at a blocking point stops at once with skid 0, the others at their
freeze points, be it those of a halt that this one overtakes. Under `abort` a stopped crew's wait is abandoned. -/
def State.broadcast (s : State) (uid idx : Nat) (abort : Bool) : State :=
  s.modCrews uid (fun d =>
    let e := if abort then d.abandon else d
    if d.idx == idx || d.g.exited then d
    else if d.blocked then { e with g := { e.g with frozen := true, stopping := false, skid := 0 } }
    else if d.g.frozen then e
    else if d.g.stopping then d
    else { d with g := { d.g with stopping := true, skid := 0 } })

/-- When the last crew of an aborting cohort stands still, the cohort aborts. -/
def State.settle (s : State) (uid : Nat) : State :=
  match s.cohort? uid with
  | some h => match h.halt with
    | some k => if k.abort && (s.crewsOf uid).all Crew.stopped then s.abortCohort h k else s
    | none => s
  | none => s

/-- Begin the abort of a cohort (R214, R219). -/
def State.startAbort (s : State) (uid : Nat) (k : Halt) : State :=
  let s := s.modCohort uid (fun h => { h with halt := some { k with abort := true }, ev := .placed })
  let s := s.modCrew uid k.crew (fun d => { d with g := { d.g with frozen := true, stopping := false } })
  (s.broadcast uid k.crew true).settle uid

/-! ## Taking a trap -/

/-- The fault registers of a trap (R211). -/
def Crew.setFault (c : Crew) (t : Trap) : Crew :=
  { c with f := { pc := t.pc, cause := t.cause, lanes := t.lanes, addr := t.addr, lcause := t.lcause
                  xdev := t.xdev } }

/-- R210: causes for which the handler never runs. -/
def noHandler (cause : Nat) : Bool := cause == 9 || cause == 10

/-- A handler may run for this trap (R216). -/
def handlerRuns (n : Node) (h : Cohort) (c : Crew) (cause : Nat) : Bool :=
  n.handler != 0 && !noHandler cause && !c.g.hnd && !(cause == 16 && h.expired)

/-- What a unit keeps over a handler that returns to it (R217): its progress, but one that was stalled at issue before any
of its accesses went out has none and issues again from its start (R90): an MMQ or CPQ with the blocks that it has read
(R176), a sharded access with the entries that it has read (R143). -/
def WaitSt.kept (w : WaitSt) : WaitSt :=
  if w.kind = .none ∧ (w.held ≠ [] ∨ (w.marl ≠ [] ∧ w.own = [])) then {} else w

/-- Entry of the handler (R216): the resume PC, xm and MSD are saved; the PC, HND and xm change. A unit
that is entered again keeps its progress (R217). -/
def Crew.enter (c : Crew) (t : Trap) (handler : Word) : Crew :=
  { c with
    h := { pc := t.resume, xm := c.m.xm, msd := c.m.msd, w := if t.resume = c.r.pc then c.w.kept else {} }
    m := { c.m with xm := c.m.om }
    g := { c.g with hnd := true }
    r := { c.r with pc := handler }
    w := {}
    x := { c.x with xout := [], xwait := [], ibuf := [] } }

/-- THE shared operation that takes a trap (R211 to R216): the fault registers, then one of: pending
behind a sibling's halt (R213), the handler, with the siblings frozen under FRZ (R215), or the abort of
the cohort, whose image finds the crew at its freeze point (R221). `c` is the crew as the unit leaves it, its PC
still at the unit. -/
def State.takeTrap (s : State) (c : Crew) (h : Cohort) (t : Trap) : State :=
  let c := c.setFault t
  let n := s.nodeOf h
  let s := s.modCohort h.uid (fun x => if x.ev = .saving then { x with ev := .placed } else x)
  match h.halt with
  | some k =>
    if k.crew ≠ c.idx then
      s.putCrew { c with pend := c.pend ++ [t], r := { c.r with pc := t.resume } }
    else
      (s.putCrew { c with r := { c.r with pc := t.resume } }).startAbort h.uid
        { crew := c.idx, trap := t, abort := true, hnd := c.g.hnd, xm := c.m.xm, msd := c.m.msd }
  | none =>
    if handlerRuns n h c t.cause then
      let s := s.putCrew (c.enter t n.handler)
      let s := if t.cause = 16 then s.modCohort h.uid (fun x => { x with run := 0, expired := true }) else s
      if c.g.ccr.getLsbD 13 then
        (s.modCohort h.uid (fun x => { x with halt := some { crew := c.idx, trap := t, abort := false } })).broadcast
          h.uid c.idx false
      else s
    else
      (s.putCrew { c with r := { c.r with pc := t.resume } }).startAbort h.uid
        { crew := c.idx, trap := t, abort := true, hnd := c.g.hnd, xm := c.m.xm, msd := c.m.msd }

/-- A trap taken before any effect of the unit (R212), resuming at the next instruction (R217). -/
def Crew.trapAt (c : Crew) (cause : Nat) (addr : Word := 0) : Trap :=
  { cause := cause, pc := c.r.pc, addr := addr, resume := c.nextPc }

/-- ILLEGAL before any effect (R210). -/
def State.illegal (s : State) (c : Crew) (h : Cohort) : State := s.takeTrap c.issued h (c.trapAt 1)

/-- The end of a unit (R212, R214, R227): the PC moves to `pc`, a unit within the skid is counted, and
the unit's own trap, else SSTEP, is taken. CCR and HND are those with which the unit issued (R95). A unit that
has left a trap for the next issue, be it in an earlier turn, reports that one (R201). -/
def State.finishAt (s : State) (c : Crew) (h : Cohort) (pc : Word) (t : Option Trap) : State :=
  let o := (s.crew? c.uid c.idx).getD c
  let step : Option Trap := if o.g.ccr.getLsbD 12 && !o.g.hnd && !c.w.told then
    some { cause := 13, pc := c.r.pc, resume := pc } else none
  match (match t with | some x => some x | none => step) with
  | some x => s.takeTrap (c.issued.setPc pc) h x
  | none => s.putCrew (c.issued.setPc pc)

/-- The end of a unit that goes on to the next word. -/
def State.finish (s : State) (c : Crew) (h : Cohort) (t : Option Trap := none) : State :=
  s.finishAt c h c.nextPc t

/-- The return from a handler (R218, R330): xm and MSD from the shadow state, HND clear, the crews frozen
by this crew's trap released, the PC at the resume PC. A claim that was cut short is made anew (R35), and a WAITA
reads its word anew, after what the handler has read of it (R108, R217). -/
def State.tret (s : State) (c : Crew) (h : Cohort) : State :=
  let mine : Bool := match h.halt with
    | some k => k.crew == c.idx && !k.abort
    | none => false
  let h1 := if mine then { h with halt := none } else h
  let s := if mine then
      (s.modCohort h.uid (fun x => { x with halt := none })).modCrews h.uid (fun d =>
        { d with g := { d.g with frozen := false, stopping := false } })
    else s
  let c1 := { c with
    m := { c.m with xm := c.h.xm, msd := c.h.msd }
    g := { c.g with hnd := false } }
  let s := s.finishAt c1 h1 c.h.pc none
  let again : WaitSt := match c.h.w.kind with
    | .regclm _ => { c.h.w with kind := .none }
    | _ => c.h.w
  let s := match c.h.w.kind with
    | .waita _ _ _ => { s with mem := { s.mem with
        remote := s.mem.remote.filter (fun r => r.who != Asker.waita c.uid c.idx false) } }
    | _ => s
  s.modCrew c.uid c.idx (fun d => if d.g.hnd then d else { d with w := again })

/-! ## Ordering (R110 to R116) -/

/-- A store is performed at the observation point of the scope (R112); an entry that is still listed is
not performed at its home. -/
def Store.seen (e : Store) (scope : Nat) (span : Bool) : Bool := scope == 2 && !span && e.l1.isSome

/-- What a release waits for (R110): `loads` or stores on their way, or the side log. -/
inductive Held where
  | done | stall | log
deriving DecidableEq, Repr

/-- A release of this scope waits for a side-log entry (R110, R112): crew scope for none, cohort scope for none of
host memory. -/
def LogEntry.covered (e : LogEntry) (scope : Nat) : Bool :=
  !e.nt && decide (scope ≠ 1) && (decide (scope ≠ 2) || decide (vaDie (pageVa e.page) ≠ 2))

/-- The state of a release of a scope by a crew (R110, R112, R115). -/
def State.release (s : State) (c : Crew) (h : Cohort) (scope : Nat) : Held :=
  if s.mem.log.any (fun e => e.uid == c.uid && e.idx == c.idx && e.covered scope) then .log
  else if s.mem.loads.any (fun l => l.uid == c.uid && l.idx == c.idx) then .stall
  else if s.mem.stores.any (fun e => e.uid == c.uid && e.idx == c.idx && !e.nt && e.covered scope
      && !e.seen scope h.sh.span) then .stall
  else .done

/-- The effect of an acquire (R109, R111, R112): the crew's loads read from this instant on. -/
def State.acquired (s : State) (c : Crew) (h : Cohort) (scope : Nat) : Crew :=
  if scope = 1 then c
  else { c with x := { c.x with
      acq := s.fresh.stamp
      floors := []
      musts := if h.sh.span then [] else
        ((s.mem.stores.filter (fun e => e.uid == c.uid && e.l1.isSome)).map (·.id)) } }

/-- The trap of a failed side-log entry at an ordering point (R137): the instruction has no effect and
is executed again after TRET. -/
def State.orderTrap (s : State) (c : Crew) (h : Cohort) (t : Trap) : State :=
  s.takeTrap { c.issued with fail := none } h { t with resume := c.r.pc }

/-- An instruction that makes a release, then `f`: it waits, at a blocking point when the side log holds
it (R110), or reports a failed entry (R137). -/
def State.releasing (s : State) (c : Crew) (h : Cohort) (scope : Nat) (f : State) : State :=
  match c.fail with
  | some (_, t) => s.orderTrap c h t
  | none =>
    match s.release c h scope with
    | .done => f
    | .stall => s.putCrew { c with w := { c.w with kind := .none } }
    | .log => s.waitOn c .release

/-! ## Barriers and register claims -/

/-- The crews a stage mask counts (R21, R296). -/
def countedBy (cs : List Crew) (m : Nat) : List Nat := (cs.filter (fun c => bitOf m c.stage)).map (·.idx)

/-- A barrier's generation is complete (R296). -/
def barDone (cs : List Crew) (b : Bar) : Bool :=
  (countedBy cs b.mask).all (fun i =>
    b.arr.contains i || cs.any (fun c => c.idx == i && c.g.exited))

/-- Complete what can complete (R296): its arrival set empties and its waiting crews go on. -/
def State.testBars (s : State) (uid : Nat) : State :=
  let cs := s.crewsOf uid
  match s.cohort? uid with
  | none => s
  | some h =>
    let fin := (h.bars.map (·.n)).filter (fun n => (h.bars.find? (fun b => b.n == n)).any (barDone cs))
    (s.modCohort uid (fun h => { h with bars := h.bars.filter (fun b => !fin.contains b.n) })).modCrews uid
      (fun c => match c.w.kind with
        | .barrier b => if fin.contains b then { c with w := { c.w with kind := .none } } else c
        | _ => c)

/-- Grant `n` registers to a crew (R315): the new ones read zero. -/
def Crew.grant (c : Crew) (n : Nat) : Crew :=
  { c with size := c.size + n, r := { c.r with v := c.r.v.keep (fun k => k < 32 * c.size) } }

/-- The waiting claims of a cohort in the order in which they blocked, those of one cycle by crew (R35): the cycle, the
crew and the number of registers. -/
def State.claims (s : State) (uid : Nat) : List (Nat × Nat × Nat) :=
  sortBy (fun a b => decide (a.1 < b.1) || (a.1 == b.1 && decide (a.2.1 ≤ b.2.1)))
    ((s.crewsOf uid).filterMap (fun c => match c.w.kind with
      | .regclm n => some (c.w.at_, c.idx, n)
      | _ => none))

/-- When F has grown, examine the waiting claims in blocking order and grant each one that fits (R35). A claim of the
same cycle as the release counts as made after it: it is granted when no earlier one is left waiting. A crew whose
claim is granted finds its claim met when it issues again. -/
def State.grantClaims (s : State) (uid : Nat) : State :=
  ((s.claims uid).foldl (fun (x : State × Bool) k =>
    match x.1.cohort? uid with
    | none => x
    | some h =>
      if k.2.2 ≤ h.sh.free && (k.1 != s.clk.cycle || !x.2) then
        (((x.1.modCohort uid (fun h => { h with sh := { h.sh with free := h.sh.free - k.2.2 } })).modCrew uid k.2.1
          (fun c => { c.grant k.2.2 with w := { c.w with kind := .none, begun := true } })).reform uid k.2.1, x.2)
      else (x.1, true)) (s, false)).1

/-- The crew waits at barrier `b`, in whose arrival set it stands (R296): a wait for a generation that has completed is
over. -/
def Crew.waitsAt (c : Crew) (bars : List Bar) (b : Nat) : Bool :=
  c.w.kind == .barrier b && bars.any (fun x => x.n == b && x.arr.contains c.idx)

/-- A barrier at which a crew waits cannot complete (R286): some crew it counts has not arrived and
waits in REGCLM, or at a barrier that cannot complete. `k` bounds the chain of barriers. -/
def barStuck (cs : List Crew) (bars : List Bar) (b : Nat) : Nat → Bool
  | 0 => false
  | k + 1 =>
    match bars.find? (fun x => x.n == b) with
    | none => false
    | some x => (countedBy cs x.mask).any (fun i =>
        !x.arr.contains i && cs.any (fun c => c.idx == i && !c.g.exited && (match c.w.kind with
          | .regclm _ => true
          | .barrier b2 => c.waitsAt bars b2 && barStuck cs bars b2 k
          | _ => false)))

/-- REGDEADLOCK (R35, R286): some claim waits, and every other crew has exited or waits in REGCLM or at
a barrier that cannot complete. The lowest crew that waits in REGCLM takes it, and the cohort aborts, also from
a halt under FRZ. -/
def State.testDeadlock (s : State) (uid : Nat) : State :=
  let cs := s.crewsOf uid
  match s.cohort? uid with
  | none => s
  | some h =>
    let stuck := cs.all (fun c => c.g.exited || (match c.w.kind with
      | .regclm _ => true
      | .barrier b => c.waitsAt h.bars b && barStuck cs h.bars b 16
      | _ => false))
    match cs.find? (fun c => match c.w.kind with | .regclm _ => true | _ => false) with
    | some c =>
      let t : Trap := { cause := 9, pc := c.r.pc, resume := c.r.pc }
      if !stuck then s
      else match h.halt with
        | none => s.takeTrap c h t
        | some k => if k.abort then s else (s.putCrew (c.setFault t)).startAbort uid
            { crew := c.idx, trap := t, abort := true, hnd := c.g.hnd, xm := c.m.xm, msd := c.m.msd }
    | none => s

/-! ## Retirement (R306) -/

/-- The loads, stores and side-log entries that the retirement release waits for (R110, R116). -/
def State.owes (s : State) (uid : Nat) : Bool :=
  s.mem.loads.any (fun l => l.uid == uid) || s.mem.stores.any (fun e => e.uid == uid && !e.nt) || s.mem.log.any (fun e => e.uid == uid && !e.nt)

/-- Retire a cohort whose crews have all exited, with no trap still to be handled (R227), whose items are done and
whose domain-scope release is complete. -/
def State.tryRetire (s : State) (uid : Nat) : State :=
  match s.cohort? uid with
  | none => s
  | some h =>
    if h.ev ≠ .dead && h.halt.isNone && (s.crewsOf uid).all (fun c => c.gone && c.pend.isEmpty)
        && !(s.eng.items.any (fun i => i.uid == uid)) && !s.owes uid then
      let s := s.freeCohort h
      { s with
        cohorts := s.cohorts.filter (fun x => x.uid != uid)
        crews := s.crews.filter (fun c => c.uid != uid) }
    else s

end Sys2Proof.Machine
end

