-- ==== Sys2Proof/Machine/Access.lean ====
section
/-! DEFINITION. The memory unit: the accesses of one instruction to global memory, lane by lane (R129,
R134 to R137, R199 to R201, R211, R212), to the scratchpad (R98 to R101) and to lane-private memory
(R104). -/

namespace Sys2Proof.Machine

/-- What an instruction asks of global memory. `lanes` are its aligned lanes with their addresses; `rank`
orders the passes of a sharded access (R146); `dst` and `data` give, by lane and by 8-byte word of the
access, where a returned value goes and what is stored. -/
structure MemUnit where
  acc : Acc
  bytes : Nat
  lanes : List (Nat × Word)
  nt : Bool := false
  ret : Bool := true
  op : Option AtOp := none
  rank : Word → Nat := fun _ => 1
  dst : Nat → Nat → Dst := fun _ _ => .none
  data : Nat → Nat → Word := fun _ _ => 0
  swap : Nat → Word := fun _ => 0
  tensor : Option Nat := none
  wait : Bool := false

/-- The 8-byte words of an access of `bytes` bytes: number, offset and length (R107). -/
def wordsOf (bytes : Nat) : List (Nat × Nat × Nat) :=
  if bytes ≤ 8 then [(0, 0, bytes)] else (List.range (bytes / 8)).map (fun k => (k, 8 * k, 8))

/-- A load, an atomic that returns, and everything else that holds its crew at a page request (R134). -/
def MemUnit.holds (u : MemUnit) : Bool := u.acc == .load || (u.acc == .atomic && u.ret)

/-- Put a request on the list of those outstanding. -/
def State.putRemote (s : State) (r : Remote) : State :=
  { s.bumpId with mem := { s.mem with remote := s.mem.remote ++ [r] } }

/-- Send a request of a die for context `ctx` to another device (R198, R199): it carries the VA, the context and
its generation (R123). -/
def State.newRemote (s : State) (die dev ctx : Nat) (who : Asker) (va : Word) (n : Nat) (k : ReqKind) :
    State × Nat :=
  let rid := s.fresh.id
  let port := s.accessPort die dev va
  let r : Remote := { rid := rid, who := who, va := va, n := n, sent := s.clk.ns, port := port }
  ((s.putRemote r).send (.request dev (port.getD 0) rid ctx (s.genOf ctx) va k), rid)

/-- Send an access to host memory, whose home has the key `key`, with the PASID of its context (R124, R207); its
timeout starts (R209). -/
def State.newHost (s : State) (ctx key : Nat) (who : Asker) (va : Word) (n : Nat) (k : ReqKind) : State × Nat :=
  let rid := s.fresh.id
  let v : Word := match k with
    | .store _ vs => vs.headD 0
    | _ => 0
  let r : Remote := { rid := rid, who := who, va := va, n := n, sent := s.clk.ns, key := some key, val := v }
  ((s.putRemote r).send (.hostRequest (s.pasidOf ctx) rid (key % 2 ^ 56) k), rid)

/-- Write a returned value to its destination (R29, R276); a register no longer allocated discards it
(R34). -/
def Crew.deliver (c : Crew) (d : Dst) (v : Word) : Crew :=
  match d with
  | .none => c
  | .s n => c.setS n v
  | .v k => if k < 32 * c.size then { c with r := { c.r with v := SMap.set 0 c.r.v k v } } else c

/-- All ones of a size, as a timed-out load returns it (R200). -/
def allOnes (n : Nat) : Word := BitVec.ofNat 64 (2 ^ (8 * n) - 1)

/-- The parts of one lane, behind those of the lanes that go out with it as one load. A lane that goes to another device
or to host memory makes one request, so that it completes or fails as a whole (R212); lanes that read one location there
share it, so that they return one value (R107). -/
def State.loadParts (s : State) (die ctx id : Nat) (u : MemUnit) (acc : List Part) (l : Nat × Word × Lane) :
    State × List Part :=
  let (s, rid) : State × Option Nat := match l.2.2 with
    | .home k => if k / 2 ^ 56 ≠ 2 then (s, none) else
      (match acc.find? (fun p => p.key == k && p.remote.isSome) with
       | some p => (s, p.remote)
       | none =>
         let (s, rid) := s.newHost ctx k (.part id l.1 (u.dst l.1 0)) l.2.1 u.bytes (.load u.bytes)
         (s, some rid))
    | .remote dev =>
      (match acc.find? (fun p => p.va == l.2.1 && p.key == 0 && p.remote.isSome) with
       | some p => (s, p.remote)
       | none =>
         let (s, rid) := s.newRemote die dev ctx (.part id l.1 (u.dst l.1 0)) l.2.1 u.bytes (.load u.bytes)
         (s, some rid))
    | _ => (s, none)
  (s, acc ++ (wordsOf u.bytes).map (fun w =>
    { lane := l.1, va := l.2.1 + BitVec.ofNat 64 w.2.1, n := w.2.2
      key := (match l.2.2 with | .home k => k + w.2.1 | _ => 0), dst := u.dst l.1 w.1, remote := rid }))

/-- What a lane's access asks of its home, for the words of a list (R107). -/
def MemUnit.asks (u : MemUnit) (lane n : Nat) (ws : List Nat) : ReqKind := match u.op with
  | none => .store n (ws.map (u.data lane))
  | some o => .atomic o n (u.data lane 0) (u.swap lane)

/-- The store or atomic of one lane, word by word; `unit` numbers its instruction. A lane that goes to another device
makes one request, so that it completes or fails as a whole (R212). -/
def State.storeLane (s : State) (c : Crew) (h : Cohort) (unit : Nat) (u : MemUnit) (l : Nat × Word × Lane) :
    State :=
  let ws := wordsOf u.bytes
  (ws.foldl (fun (x : State × Option Nat) w =>
    let s := x.1
    let va := l.2.1 + BitVec.ofNat 64 w.2.1
    let id := s.fresh.id
    let e : Store :=
      { id := id, serial := h.serial, uid := c.uid, idx := c.idx, pc := c.r.pc, lane := l.1, va := va
        n := w.2.2, key := 0, data := u.data l.1 w.1, op := u.op, swap := u.swap l.1
        dst := if u.ret then u.dst l.1 w.1 else .none, nt := u.nt, xto := c.trapXto, tensor := u.tensor
        node := h.node, unit := unit, res := c.w.res }
    let s := s.bumpId
    let (s, e) : State × Store := match l.2.2 with
      | .home key =>
        if key / 2 ^ 56 = 2 then
          let (s, rid) := s.newHost h.ctx (key + w.2.1) (.store id) va w.2.2 (u.asks l.1 w.2.2 [w.1])
          (s, { e with key := key + w.2.1, remote := some rid })
        else (s, { e with key := key + w.2.1 })
      | .remote dev => match x.2 with
        | some rid => (s, { e with remote := some rid })
        | none =>
          let (s, rid) := s.newRemote (dieOf (h.coreOf c.idx)) dev h.ctx (.store id) va u.bytes
            (u.asks l.1 u.bytes (ws.map (·.1)))
          (s, { e with remote := some rid })
      | _ => (s, e)
    ({ s with mem := { s.mem with stores := s.mem.stores ++ [e] } }, e.remote)) (s, none)).1

/-- The kind of a page request that a lane met (R133). -/
def Lane.kind? : Lane → Option Nat
  | .req k => some k
  | _ => none

/-- A lane's access goes out to a home here or on another device. -/
def Lane.goes : Lane → Bool
  | .home _ => true
  | .remote _ => true
  | _ => false

/-- Append the lanes on one page to the side log (R135), with the kind of the page's request; lanes that go behind
earlier entries of the page have the kind of those (R136). -/
def State.logPage (s : State) (c : Crew) (h : Cohort) (u : MemUnit) (page : Nat)
    (ls : List (Nat × Word × Lane)) : State :=
  let asked := ((ls.filter (fun l => vaPage l.2.1 == page)).filterMap (fun l => l.2.2.kind?)).head?
  let before := ((s.mem.log.filter (fun e => e.uid == c.uid && e.idx == c.idx && e.page == page)).map (·.kind)).getLast?
  let kind := (asked <|> before).getD 0
  let lanes := (ls.filter (fun l => vaPage l.2.1 == page)).flatMap (fun l =>
    (wordsOf u.bytes).map (fun w => ({ lane := l.1, va := l.2.1 + BitVec.ofNat 64 w.2.1, n := w.2.2
                                       data := u.data l.1 w.1, op := u.op, swap := u.swap l.1 } : LogLane)))
  let e : LogEntry :=
    { id := s.fresh.id, serial := h.serial, core := h.coreOf c.idx, uid := c.uid, idx := c.idx, pc := c.r.pc
      page := page, nt := u.nt, kind := kind, lanes := lanes, tensor := u.tensor, node := h.node, ctx := h.ctx
      xto := c.trapXto, res := c.w.res }
  let s := s.bumpId
  let s := { s with mem := { s.mem with log := s.mem.log ++ [e] } }
  match asked with
  | some k => s.joinMerge h.ctx page k c.r.pc
  | none => s

/-- The XSR flag of an access that fails as a timeout does (R200): 0 XTO, 1 XSTO, 2 XAU. -/
def Acc.xsr : Acc → Nat
  | .load => 0
  | .store => 1
  | .atomic => 2

/-- The lowest device of the fenced lanes (R201). -/
def fencedDev (ls : List (Nat × Word × Lane)) : Option Nat :=
  ls.foldl (fun m l => match l.2.2, m with
    | .fenced d, none => some d
    | .fenced d, some e => some (min d e)
    | _, m => m) none

/-- The lowest lane of a mask. -/
def lowLane (m : Mask) : Nat := (activeLanes m).headD 32

/-- Of two failures of a crew's stores, by the numbers of their instructions, the one to report (R137): the earlier;
lanes of one instruction on one page make one report. -/
def earlierFail (x y : Nat × Trap) : Nat × Trap :=
  if x.1 = y.1 ∧ vaPage x.2.addr = vaPage y.2.addr then
    (x.1, { x.2 with
      lanes := x.2.lanes ||| y.2.lanes, lcause := x.2.lcause ||| y.2.lcause
      addr := if lowLane y.2.lanes < lowLane x.2.lanes then y.2.addr else x.2.addr })
  else if x.1 < y.1 ∨ (x.1 = y.1 ∧ lowLane x.2.lanes ≤ lowLane y.2.lanes) then x else y

/-- The report of a store of instruction `unit` that the crew makes at its next ordering point (R137). -/
def Crew.failing (c : Crew) (unit : Nat) (t : Trap) : Crew :=
  { c with fail := match c.fail with
    | none => some (unit, t)
    | some x => some (earlierFail x (unit, t)) }

/-- The lane's page request has failed (R137). -/
def Lane.failed : Lane → Bool
  | .fault f => f == 6
  | _ => false

/-- Issue the accesses of a unit. The crew stays at the unit until every outcome is known (R129), that of an
access to another device by its answer or by the owner's word that the page allows it, its page
requests are answered (R134), the side log has room (R135) and earlier side-logged accesses to its
pages are replayed (R136); then the unit ends, with the trap of its faulting lanes (R212). `pre` are lanes that
fault by their addresses; a lane that is done is not looked at again, since its registers may have changed
(R94). A lane that the side log would have held for a page whose request has failed meanwhile is reported as its entry
would be (R137). Poisoned data is met here, before the crew's next issue unit (R212; log entry 78). An atomic of which a
lane goes out or into the side log is an effect that a replay cannot undo (R245). -/
def State.memUnit (s : State) (c : Crew) (h : Cohort) (u : MemUnit) (pre : List LaneFault) : State :=
  let core := h.coreOf c.idx
  let pre := pre.filter (fun f => !mbit c.w.done f.lane)
  let ls := (u.lanes.filter (fun l => !mbit c.w.done l.1)).map
    (fun l => (l.1, l.2, s.lane c core h.ctx l.2 u.acc))
  let needs := ((ls.filter (fun l => l.2.2 == .need)).map (fun l => (vaPage l.2.1, u.acc))).eraseDups
  let mine := (s.mem.log.filter (fun e => e.uid == c.uid && e.idx == c.idx)).map (·.page)
  let behind := ls.filter (fun l => (l.2.2.goes || l.2.2.kind?.isSome) && mine.contains (vaPage l.2.1))
  let logged := if u.holds then [] else
    ls.filter (fun l => l.2.2.kind?.isSome || (l.2.2.goes && mine.contains (vaPage l.2.1)))
  let pages := (logged.map (fun l => vaPage l.2.1)).eraseDups
  let used := (s.mem.log.filter (fun e => e.core == core)).length
  if !needs.isEmpty then
    s.putCrew { c with w := { c.w with kind := .none }, x := { c.x with xwait := needs } }
  else match (if u.acc == .store then none else behind.head?) with
  | some l => s.waitOn c (.logPage (vaPage l.2.1))
  | none =>
    if !pages.isEmpty && decide (512 < used + pages.length) then s.waitOn c .logFull
    else
      let ecc := ls.filter (fun l => match l.2.2 with
        | .home k => u.acc != .store && s.poisoned k u.bytes
        | _ => false)
      let go := ls.filter (fun l => l.2.2.goes && !(ecc.any (fun e => e.1 == l.1))
        && !(logged.any (fun e => e.1 == l.1)))
      let fenced := ls.filter (fun l => match l.2.2 with | .fenced _ => true | _ => false)
      let asked := if u.holds then ls.filter (fun l => l.2.2.kind?.isSome) else []
      let lost := if u.holds then [] else ls.filter (fun l => l.2.2.failed)
      let faults : List LaneFault :=
        (ls.filterMap (fun l => match l.2.2 with
          | .fault f => if !u.holds && f == 6 then none
              else some { lane := l.1, cause := f, addr := l.2.1, rank := u.rank l.2.1 }
          | .fenced d => if c.trapXto && u.acc != .store then
              some { lane := l.1, cause := 4, addr := l.2.1, rank := u.rank l.2.1, xdev := some d, fence := true, late := true }
            else none
          | _ => none))
          ++ ecc.map (fun l => { lane := l.1, cause := 15, addr := l.2.1, rank := u.rank l.2.1 })
      -- lanes of a fenced device end at once (R123)
      let c1 := if u.holds then
          fenced.foldl (fun c l => (wordsOf u.bytes).foldl
            (fun c w => c.deliver (u.dst l.1 w.1) (allOnes w.2.2)) c) c
        else c
      let c1 := match fencedDev ls with
        | some d => c1.setXsr s.clk.cycle u.acc.xsr d
        | none => c1
      let late : Option Trap := if c.trapXto && u.acc == .store then
          laneTrap c (fenced.map (fun l =>
            { lane := l.1, cause := 4, addr := l.2.1, rank := 0, xdev := fencedDev ls, fence := true, late := true }))
        else none
      let c1 := { c1 with
        pend := c1.pend ++ (match late with
          | some t => [{ t with late := true }]
          | none => [])
        w := { c1.w with told := c1.w.told || late.isSome } }
      let c1 := lost.foldl (fun (c1 : Crew) l => c1.failing s.fresh.id
        { cause := 6, pc := c.r.pc, lanes := maskOf [l.1], addr := l.2.1
          lcause := flcause [{ lane := l.1, cause := 6, addr := l.2.1 }], resume := c.r.pc }) c1
      -- the accesses that go out
      let far := go.any (fun l => match l.2.2 with
        | .remote _ => true
        | .home k => k / 2 ^ 56 == 2
        | _ => false)
      let hold := far && (c.trapXto || u.wait) && u.holds
      let id := s.fresh.id
      let s1 :=
        if u.acc == .load then
          if go.isEmpty then s
          else
            let (s, ps) := go.foldl (fun (s, ps) l => s.loadParts (dieOf core) h.ctx id u ps l) (s.bumpId, [])
            let ld : Load :=
              { id := id, uid := c.uid, idx := c.idx, pc := c.r.pc, resume := c.nextPc, parts := ps
                bound := c.x.acq, xto := c.trapXto, hold := hold, tensor := u.tensor, res := c.w.res }
            { s with mem := { s.mem with loads := s.mem.loads ++ [ld] } }
        else go.foldl (fun s l => s.storeLane c h id u l) s
      let sent := s1.mem.loads.drop s.mem.loads.length
      let stored := s1.mem.stores.drop s.mem.stores.length
      let s1 := pages.foldl (fun s p => s.logPage c h u p logged) s1
      let s1 := if u.op.isSome && !(go.isEmpty && pages.isEmpty) then s1.modCohort h.uid Cohort.affect else s1
      let away (p : Nat) : Bool := pageDev p != s.devid
      let out := ((go.filterMap (fun l => match l.2.2 with
        | .remote _ => some (vaPage l.2.1)
        | _ => none)) ++ c.w.pages.filter away).eraseDups
      let handled := (ls.filter (fun l => !(asked.any (fun a => a.1 == l.1)))).map (·.1) ++ pre.map (·.lane)
      let c2 := { c1 with w := { c1.w with
        done := c1.w.done ||| maskOf handled
        lf := c1.w.lf ++ pre ++ faults
        begun := true
        own := c1.w.own ++ sent.map (·.id) ++ stored.map (·.id)
        pages := out } }
      if asked.isEmpty then
        if !out.isEmpty || (sent ++ s.mem.loads.filter (fun l => c.w.own.contains l.id)).any (·.hold)
            || (stored ++ s.mem.stores.filter (fun e => c.w.own.contains e.id)).any (fun e =>
                e.op.isSome && e.remote.isSome && e.xto) then
          (if u.holds then s1.waitOn c2 .remote else s1.putCrew { c2 with w := { c2.w with kind := .none } })
        else s1.finish c2 h (laneTrap c2 c2.w.lf)
      else
        let want := (asked.map (fun l => (vaPage l.2.1, l.2.2.kind?.getD 0))).eraseDups
        let s2 := want.foldl (fun s w => s.joinMerge h.ctx w.1 w.2 c.r.pc) s1
        let c3 := { c2 with w := { c2.w with pages := (out ++ want.map (·.1)).eraseDups } }
        s2.waitOn c3 (.page (vaPage (asked.head?.map (·.2.1)).get!))

/-! ## The scratchpad (R98, R324) -/

/-- The fault of a scratchpad access of `n` bytes, aligned to `al` (R98). -/
def spFault (h : Cohort) (off : Word) (n al : Nat) : Option Nat :=
  if off.toNat % al ≠ 0 then some 3
  else if 1024 * h.sh.kib < off.toNat + n then some 4
  else none

/-- Read `n` ≤ 8 bytes at an offset within one word. -/
def Cohort.spRead (h : Cohort) (off n : Nat) : Word :=
  lowBytes n (h.sp64 off >>> (8 * (off % 8)))

/-- Write the low `n` ≤ 8 bytes at an offset within one word. -/
def Cohort.spWrite (h : Cohort) (off n : Nat) (v : Word) : Cohort :=
  let m : Word := allOnes n <<< (8 * (off % 8))
  h.setSp off ((h.sp64 off &&& ~~~m) ||| ((v <<< (8 * (off % 8))) &&& m))

/-- The lanes of a unit that are active and not done. -/
def Crew.todo (c : Crew) (q : Pred) : List Nat := (activeLanes (c.em q)).filter (fun l => !mbit c.w.done l)

/-- The lanes of a scratchpad unit still to be served with their offsets, and the faults of the others. -/
def spLanes (c : Crew) (h : Cohort) (q : Pred) (a b n al : Nat) : List (Nat × Nat) × List LaneFault :=
  (c.todo q).foldl (fun (ok, bad) l =>
    let off := laneAddr c a b l
    match spFault h off n al with
    | some f => (ok, bad ++ [{ lane := l, cause := f, addr := off, rank := 1 }])
    | none => (ok ++ [(l, off.toNat)], bad)) ([], [])

/-- A read of `n` scratchpad bytes meets poisoned data (R244). -/
def State.spPoisoned (s : State) (h : Cohort) (off n : Nat) : Bool := s.poisoned (h.spKey off) n

/-- Of the lanes of a scratchpad unit that read, those on sound data, and the ECC faults of the others with the
faults found before (R210, R244). -/
def State.spSound (s : State) (h : Cohort) (n : Nat) (x : List (Nat × Nat) × List LaneFault) :
    List (Nat × Nat) × List LaneFault :=
  (x.1.filter (fun l => !s.spPoisoned h l.2 n),
    x.2 ++ (x.1.filter (fun l => s.spPoisoned h l.2 n)).map (fun l =>
      { lane := l.1, cause := 15, addr := BitVec.ofNat 64 l.2, rank := 1 }))

/-! ## Atomic operations (R335) -/

/-- The signed value of the low `8 n` bits. -/
def sgn (n : Nat) (x : Word) : Int := toSigned (8 * n) (x.toNat % 2 ^ (8 * n))

/-- The new value at the location, `m` the old value, `a` the operand and `b` the swap value (R335). -/
def atomNew (op : AtOp) (n : Nat) (m a b : Word) : Word :=
  let m := lowBytes n m
  let a := lowBytes n a
  lowBytes n (match op with
    | .add => m + a
    | .min => if sgn n m ≤ sgn n a then m else a
    | .max => if sgn n a ≤ sgn n m then m else a
    | .minu => if m.toNat ≤ a.toNat then m else a
    | .maxu => if a.toNat ≤ m.toNat then m else a
    | .and => m &&& a
    | .or => m ||| a
    | .xor => m ^^^ a
    | .xchg => a
    | .cas => if m = a then b else m
    | .fadd => BitVec.ofNat 64
        (addF .f32 1 false (decodeF .f32 m.toNat) (decodeF .f32 a.toNat)).1)

end Sys2Proof.Machine
end

