-- ==== Sys2Proof/Machine/Control.lean ====
section
/-! DEFINITION. Branches and jumps (R259, R295, R299, R309), predicates and masks (R26, R272, R312,
R313, R365). -/

namespace Sys2Proof.Machine

/-! ## Branches -/

/-- The target of a branch word: its own address + 4 × OFF14 (R253, R295). -/
def Crew.target (c : Crew) (off : Int) : Word := c.wordPc + BitVec.ofInt 64 (4 * off)

/-- The scalar conditions of R259, signed. -/
def bHolds (k : BCond) (x : Word) : Bool :=
  match k with
  | .z => x == 0
  | .nz => x != 0
  | .lt => decide (x.toInt < 0)
  | .ge => decide (0 ≤ x.toInt)
  | .gt => decide (0 < x.toInt)
  | .le => decide (x.toInt ≤ 0)

/-- The predicate conditions of R25, tested against xm. -/
def pHolds (k : PCond) (p xm : Mask) : Bool :=
  match k with
  | .pany => p &&& xm != 0
  | .pnone => p &&& xm == 0
  | .pall => p &&& xm == xm

/-- A branch: to its target when taken, else to the next word. -/
def branchOp (off : Int) (taken : Crew → Bool) (s : State) : Host.Outcome State Fault Refusal :=
  crewOp (fun s c h => s.finishAt c h (if taken c then c.target off else c.nextPc) none) s

/-- BRA (R295). -/
def execBra (off : Int) (s : State) : Host.Outcome State Fault Refusal := branchOp off (fun _ => true) s

/-- B.cc on a scalar register (R259, R295). -/
def execBcc (k : BCond) (r : Nat) (off : Int) (s : State) : Host.Outcome State Fault Refusal :=
  branchOp off (fun c => bHolds k (c.sr r)) s

/-- B.cc on a predicate (R25, R295). -/
def execBccPred (k : PCond) (p : Nat) (off : Int) (s : State) : Host.Outcome State Fault Refusal :=
  branchOp off (fun c => pHolds k (c.pr p) c.m.xm) s

/-- CALL: s191 takes the address of the next word (R299). -/
def execCall (off : Int) (s : State) : Host.Outcome State Fault Refusal :=
  crewOp (fun s c h => s.finishAt (c.setS 191 (c.wordPc + 4)) h (c.target off) none) s

/-- A jump to a register's value: MISALIGN after the instruction when it is not a word address, with the
target in FADDR (R309). -/
def jumpOp (tgt : Crew → Word) (s : State) : Host.Outcome State Fault Refusal :=
  crewOp (fun s c h =>
    let t := tgt c
    if t.toNat % 4 ≠ 0 then s.finish c h (some (c.trapAt 3 t))
    else s.finishAt c h t none) s

/-- RET (R309). -/
def execRet (s : State) : Host.Outcome State Fault Refusal := jumpOp (fun c => c.sr 191) s

/-- JMPI (R309). -/
def execJmpi (a : Nat) (s : State) : Host.Outcome State Fault Refusal := jumpOp (fun c => c.sr a) s

/-! ## Predicates -/

/-- A predicate result on all 32 bits; a write to p0 is discarded (R25, R312). -/
def predOp (d : Nat) (v : Crew → Mask) (s : State) : Host.Outcome State Fault Refusal :=
  crewOp (fun s c h => s.finish (c.setP d (v c)) h) s

/-- PAND (R312). -/
def execPand (d a b : Nat) (s : State) : Host.Outcome State Fault Refusal :=
  predOp d (fun c => c.pr a &&& c.pr b) s

/-- POR (R312). -/
def execPor (d a b : Nat) (s : State) : Host.Outcome State Fault Refusal :=
  predOp d (fun c => c.pr a ||| c.pr b) s

/-- PXOR (R312). -/
def execPxor (d a b : Nat) (s : State) : Host.Outcome State Fault Refusal :=
  predOp d (fun c => c.pr a ^^^ c.pr b) s

/-- PNOT (R312). -/
def execPnot (d a : Nat) (s : State) : Host.Outcome State Fault Refusal := predOp d (fun c => ~~~(c.pr a)) s

/-- A scalar result computed from masks (R313). -/
def countOp (d : Nat) (v : Crew → Word) (s : State) : Host.Outcome State Fault Refusal :=
  crewOp (fun s c h => s.finish (c.setS d (v c)) h) s

/-- PCNT (R313). -/
def execPcnt (d a : Nat) (s : State) : Host.Outcome State Fault Refusal :=
  countOp d (fun c => BitVec.ofNat 64 (popc (c.pr a &&& c.m.xm).toNat 32)) s

/-- PCNT.any (R313). -/
def execPcntAny (d a : Nat) (s : State) : Host.Outcome State Fault Refusal :=
  countOp d (fun c => if c.pr a &&& c.m.xm != 0 then 1 else 0) s

/-- PCNT.all (R313). -/
def execPcntAll (d a : Nat) (s : State) : Host.Outcome State Fault Refusal :=
  countOp d (fun c => if c.pr a &&& c.m.xm == c.m.xm then 1 else 0) s

/-! ## The execution mask and its stack (R26) -/

/-- A stack entry (R26). -/
def Crew.stackAt (c : Crew) (i : Nat) : Mask := SMap.get 0 c.m.stack i

/-- XMSET (R26, R365). -/
def execXmset (p : Nat) (s : State) : Host.Outcome State Fault Refusal :=
  crewOp (fun s c h => s.finish (c.setXm (c.pr p)) h) s

/-- XMPUSH (R26). -/
def execXmpush (p : Nat) (s : State) : Host.Outcome State Fault Refusal :=
  crewOp (fun s c h =>
    if 32 ≤ c.m.msd then s.illegal c h
    else
      let c1 := { c with m := { c.m with
        stack := SMap.set 0 c.m.stack c.m.msd c.m.xm, msd := c.m.msd + 1 } }
      s.finish (c1.setXm (c.m.xm &&& c.pr p)) h) s

/-- XMPOP and XMELSE need an entry above the depth saved at handler entry (R26, R216). -/
def Crew.noEntry (c : Crew) : Bool := c.m.msd == 0 || (c.g.hnd && decide (c.m.msd ≤ c.h.msd))

/-- XMPOP (R26). -/
def execXmpop (s : State) : Host.Outcome State Fault Refusal :=
  crewOp (fun s c h =>
    if c.noEntry then s.illegal c h
    else s.finish (({ c with m := { c.m with msd := c.m.msd - 1 } }).setXm (c.stackAt (c.m.msd - 1))) h) s

/-- XMELSE (R26). -/
def execXmelse (s : State) : Host.Outcome State Fault Refusal :=
  crewOp (fun s c h =>
    if c.noEntry then s.illegal c h
    else s.finish (c.setXm (c.stackAt (c.m.msd - 1) &&& ~~~c.m.xm)) h) s

end Sys2Proof.Machine
end

