-- ==== Sys2Proof/Machine/VectorInt.lean ====
section
/-! DEFINITION. Vector integer, logic, compare and move instructions (R273, R333, R334, R336, R337, R340,
R341, R348 to R350, R354, R357). -/

namespace Sys2Proof.Machine

/-! ## The shape of a vector instruction -/

/-- The ARITH trap of a unit that raised an enabled flag (R171). -/
def arithTrap (c : Crew) (r : List (Nat × Fl)) : Option Trap :=
  let m := trapLanes c r
  if m = 0 then none else some { c.trapAt 11 with lanes := m }

/-- Write a result per active lane, set the flags, and end the unit (R24, R28, R169, R171): ILLEGAL before
any effect when a register lies beyond the allocation. -/
def vecOp (d : Nat) (ok : Crew → Bool) (q : Pred) (f : Crew → Nat → Word × Fl) (s : State) :
    Host.Outcome State Fault Refusal :=
  crewOp (fun s c h =>
    if !(c.vOk d 1 && ok c) then s.illegal c h
    else
      let r := (activeLanes (c.em q)).map (fun l => (l, f c l))
      let fl := r.map (fun x => (x.1, x.2.2))
      s.finish ((c.setVs d (r.map (fun x => (x.1, x.2.1)))).raise fl) h (arithTrap c fl)) s

/-- A lane from a result per element, with the flags of all of them. -/
def perElem (t : Ty) (g : Nat → Nat × Fl) : Word × Fl :=
  let r := (List.range t.count).map g
  (packLane t.width (r.map (·.1)), Fl.all (r.map (·.2)))

/-- The mould of the two-source integer instructions: elements of vA and of operand B, as T (R333). -/
def intOp (d a : Nat) (b : VOp) (t : Ty) (q : Pred) (g : Int → Int → Nat × Fl) (s : State) :
    Host.Outcome State Fault Refusal :=
  vecOp d (fun c => c.vOk a 1 && c.bOk b) q (fun c l =>
    perElem t (fun j => g (readInt t (elem t.width (c.vl a l) j)) (readInt t (bElem c b t.width l j)))) s

/-! ## Arithmetic -/

/-- VADD (R333). -/
def execVadd (d a : Nat) (b : VOp) (t : Ty) (q : Pred) (sat : Bool) (s : State) :
    Host.Outcome State Fault Refusal := intOp d a b t q (fun x y => intResult t sat (x + y)) s

/-- VSUB (R333). -/
def execVsub (d a : Nat) (b : VOp) (t : Ty) (q : Pred) (sat : Bool) (s : State) :
    Host.Outcome State Fault Refusal := intOp d a b t q (fun x y => intResult t sat (x - y)) s

/-- VADDI (R333): the immediate's low w bits, as T (R253). -/
def execVaddi (d a : Nat) (imm : Int) (t : Ty) (q : Pred) (sat : Bool) (s : State) :
    Host.Outcome State Fault Refusal :=
  vecOp d (fun c => c.vOk a 1) q (fun c l =>
    perElem t (fun j => intResult t sat
      (readInt t (elem t.width (c.vl a l) j) + readInt t (immElem t.width imm)))) s

/-- VMUL (R348). -/
def execVmul (d a : Nat) (b : VOp) (t : Ty) (q : Pred) (sat : Bool) (s : State) :
    Host.Outcome State Fault Refusal := intOp d a b t q (fun x y => intResult t sat (x * y)) s

/-- VMULH (R348): the high w bits of the exact product; no flag. -/
def execVmulh (d a : Nat) (b : VOp) (t : Ty) (q : Pred) (s : State) :
    Host.Outcome State Fault Refusal :=
  intOp d a b t q (fun x y => (wrapTo t.width (x * y / (2 ^ t.width : Nat)), {})) s

/-- VMAD (R348): vD is read at issue. -/
def execVmad (d a : Nat) (b : VOp) (t : Ty) (q : Pred) (sat : Bool) (s : State) :
    Host.Outcome State Fault Refusal :=
  vecOp d (fun c => c.vOk a 1 && c.bOk b) q (fun c l =>
    perElem t (fun j => intResult t sat
      (readInt t (elem t.width (c.vl a l) j) * readInt t (bElem c b t.width l j)
        + readInt t (elem t.width (c.vl d l) j)))) s

/-- VDIV (R172, R340). -/
def execVdiv (d a : Nat) (b : VOp) (t : Ty) (q : Pred) (s : State) :
    Host.Outcome State Fault Refusal :=
  vecOp d (fun c => c.vOk a 1 && c.bOk b) q (fun c l =>
    perElem t (fun j =>
      let r := divElem t (elem t.width (c.vl a l) j) (bElem c b t.width l j)
      (r.1, r.2.2))) s

/-- VREM (R172, R340). -/
def execVrem (d a : Nat) (b : VOp) (t : Ty) (q : Pred) (s : State) :
    Host.Outcome State Fault Refusal :=
  vecOp d (fun c => c.vOk a 1 && c.bOk b) q (fun c l =>
    perElem t (fun j =>
      let r := divElem t (elem t.width (c.vl a l) j) (bElem c b t.width l j)
      (r.2.1, r.2.2))) s

/-! ## Lane logic -/

/-- The mould of the lane logic: all 64 bits of vA and of operand B, no flag (R334). -/
def laneOp (d a : Nat) (b : VOp) (q : Pred) (g : Word → Word → Word) (s : State) :
    Host.Outcome State Fault Refusal :=
  vecOp d (fun c => c.vOk a 1 && c.bOk b) q (fun c l => (g (c.vl a l) (c.bl b l), {})) s

/-- VAND (R334). -/
def execVand (d a : Nat) (b : VOp) (q : Pred) (s : State) : Host.Outcome State Fault Refusal :=
  laneOp d a b q (fun x y => x &&& y) s

/-- VOR (R334). -/
def execVor (d a : Nat) (b : VOp) (q : Pred) (s : State) : Host.Outcome State Fault Refusal :=
  laneOp d a b q (fun x y => x ||| y) s

/-- VXOR (R334). -/
def execVxor (d a : Nat) (b : VOp) (q : Pred) (s : State) : Host.Outcome State Fault Refusal :=
  laneOp d a b q (fun x y => x ^^^ y) s

/-- VNOT (R334). -/
def execVnot (d a : Nat) (q : Pred) (s : State) : Host.Outcome State Fault Refusal :=
  vecOp d (fun c => c.vOk a 1) q (fun c l => (~~~(c.vl a l), {})) s

/-! ## Shifts: the matching element of vB, or all of s[B], modulo w (R172, R273, R357) -/

/-- The count for one element. -/
def shiftCount (c : Crew) (b : VOp) (t : Ty) (l j : Nat) : Nat :=
  match b with
  | .v n => elem t.width (c.vl n l) j % t.width
  | .s n => (c.sr n).toNat % t.width

/-- The mould of the shifts; no flag. -/
def shiftOp (d a : Nat) (b : VOp) (t : Ty) (q : Pred) (g : Nat → Nat → Nat) (s : State) :
    Host.Outcome State Fault Refusal :=
  vecOp d (fun c => c.vOk a 1 && c.bOk b) q (fun c l =>
    perElem t (fun j => (g (elem t.width (c.vl a l) j) (shiftCount c b t l j), {}))) s

/-- VSHL (R357). -/
def execVshl (d a : Nat) (b : VOp) (t : Ty) (q : Pred) (s : State) :
    Host.Outcome State Fault Refusal := shiftOp d a b t q (fun x n => x * 2 ^ n % 2 ^ t.width) s

/-- VSHR (R357). -/
def execVshr (d a : Nat) (b : VOp) (t : Ty) (q : Pred) (s : State) :
    Host.Outcome State Fault Refusal := shiftOp d a b t q (fun x n => x / 2 ^ n) s

/-- VSRA (R357): the element's top bit is copied, whatever the signedness of T. -/
def execVsra (d a : Nat) (b : VOp) (t : Ty) (q : Pred) (s : State) :
    Host.Outcome State Fault Refusal :=
  shiftOp d a b t q (fun x n => wrapTo t.width (toSigned t.width x / (2 ^ n : Nat))) s

/-! ## Minimum, maximum, counts -/

/-- VMIN (R349). -/
def execVmin (d a : Nat) (b : VOp) (t : Ty) (q : Pred) (s : State) :
    Host.Outcome State Fault Refusal := intOp d a b t q (fun x y => (wrapTo t.width (min x y), {})) s

/-- VMAX (R349). -/
def execVmax (d a : Nat) (b : VOp) (t : Ty) (q : Pred) (s : State) :
    Host.Outcome State Fault Refusal := intOp d a b t q (fun x y => (wrapTo t.width (max x y), {})) s

/-- VCLZ (R336). -/
def execVclz (d a : Nat) (t : Ty) (q : Pred) (s : State) : Host.Outcome State Fault Refusal :=
  vecOp d (fun c => c.vOk a 1) q (fun c l =>
    perElem t (fun j => (t.width - bitLen (elem t.width (c.vl a l) j), {}))) s

/-- VPOPC (R336). -/
def execVpopc (d a : Nat) (t : Ty) (q : Pred) (s : State) : Host.Outcome State Fault Refusal :=
  vecOp d (fun c => c.vOk a 1) q (fun c l =>
    perElem t (fun j => (popc (elem t.width (c.vl a l) j) 64, {}))) s

/-! ## Comparisons (R337) -/

/-- The mould of VCMP: bit l of pD, for active lanes; inactive lanes keep theirs. A signalling NaN sets
IV. An element beyond the lane's count is ILLEGAL (R273). -/
def cmpOp (d a : Nat) (b : VOp) (t : Ty) (e : Nat) (q : Pred) (fi : Int → Int → Bool)
    (ff : FV → FV → Bool) (s : State) : Host.Outcome State Fault Refusal :=
  crewOp (fun s c h =>
    if !(c.vOk a 1 && c.bOk b) || decide (t.count ≤ e) then s.illegal c h
    else
      let r := (activeLanes (c.em q)).map (fun l =>
        let x := elem t.width (c.vl a l) e
        let y := bElem c b t.width l e
        if t.isInt then (l, fi (readInt t x) (readInt t y), ({} : Fl))
        else
          let u := operandF c.ftz t x
          let v := operandF c.ftz t y
          (l, ff u v, { iv := u.sig || v.sig }))
      let fl := r.map (fun x => (x.1, x.2.2))
      let set := maskOf ((r.filter (fun x => x.2.1)).map (·.1))
      let p := (c.pr d &&& ~~~(c.em q)) ||| set
      s.finish ((c.setP d p).raise fl) h (arithTrap c fl)) s

/-- Neither operand is a NaN. -/
def ordered (u v : FV) : Bool := !u.isNan && !v.isNan

/-- VCMP.eq (R337). -/
def execVcmpEq (d a : Nat) (b : VOp) (t : Ty) (e : Nat) (q : Pred) (s : State) :
    Host.Outcome State Fault Refusal :=
  cmpOp d a b t e q (fun x y => x == y) (fun u v => ordered u v && eqF u v) s

/-- VCMP.ne (R337): true for a NaN. -/
def execVcmpNe (d a : Nat) (b : VOp) (t : Ty) (e : Nat) (q : Pred) (s : State) :
    Host.Outcome State Fault Refusal :=
  cmpOp d a b t e q (fun x y => x != y) (fun u v => !(ordered u v && eqF u v)) s

/-- VCMP.lt (R337). -/
def execVcmpLt (d a : Nat) (b : VOp) (t : Ty) (e : Nat) (q : Pred) (s : State) :
    Host.Outcome State Fault Refusal :=
  cmpOp d a b t e q (fun x y => decide (x < y)) (fun u v => ordered u v && ltF false u v) s

/-- VCMP.le (R337). -/
def execVcmpLe (d a : Nat) (b : VOp) (t : Ty) (e : Nat) (q : Pred) (s : State) :
    Host.Outcome State Fault Refusal :=
  cmpOp d a b t e q (fun x y => decide (x ≤ y)) (fun u v => ordered u v && !ltF false v u) s

/-- VCMP.un (R337): for float types, true exactly for a NaN. -/
def execVcmpUn (d a : Nat) (b : VOp) (t : Ty) (e : Nat) (q : Pred) (s : State) :
    Host.Outcome State Fault Refusal :=
  cmpOp d a b t e q (fun _ _ => false) (fun u v => !ordered u v) s

/-- VSEL (R354). -/
def execVsel (d a : Nat) (b : VOp) (p : Nat) (q : Pred) (s : State) :
    Host.Outcome State Fault Refusal :=
  vecOp d (fun c => c.vOk a 1 && c.bOk b) q
    (fun c l => (if mbit (c.pr p) l then c.vl a l else c.bl b l, {})) s

/-! ## Dot products (R341) -/

/-- The mould of VDP4 and VDP8: `n` products of `w`-bit sub-elements for each 32-bit element. -/
def dotOp (n w d a b : Nat) (sat sb sa : Bool) (q : Pred) (s : State) :
    Host.Outcome State Fault Refusal :=
  let t : Ty := if sa || sb then .s32 else .n32
  let rd (signed : Bool) (x : Nat) : Int := if signed then toSigned w x else (x : Int)
  vecOp d (fun c => c.vOk a 1 && c.vOk b 1) q (fun c l =>
    perElem t (fun j => intResult t sat
      ((List.range n).foldl (fun acc k =>
        acc + rd sa (elem w (c.vl a l) (n * j + k)) * rd sb (elem w (c.vl b l) (n * j + k)))
        (readInt t (elem 32 (c.vl d l) j))))) s

/-- VDP4 (R341). -/
def execVdp4 (d a b : Nat) (sat sb sa : Bool) (q : Pred) (s : State) :
    Host.Outcome State Fault Refusal := dotOp 4 8 d a b sat sb sa q s

/-- VDP8 (R341). -/
def execVdp8 (d a b : Nat) (sat sb sa : Bool) (q : Pred) (s : State) :
    Host.Outcome State Fault Refusal := dotOp 8 4 d a b sat sb sa q s

/-! ## Moves (R350) -/

/-- VMOV (R350). -/
def execVmov (d a : Nat) (q : Pred) (s : State) : Host.Outcome State Fault Refusal :=
  vecOp d (fun c => c.vOk a 1) q (fun c l => (c.vl a l, {})) s

/-- VMOV.bcast (R350). -/
def execVmovBcast (d a : Nat) (q : Pred) (s : State) : Host.Outcome State Fault Refusal :=
  vecOp d (fun _ => true) q (fun c _ => (c.sr a, {})) s

/-- VMOV.lane (R350). -/
def execVmovLane (d : Nat) (q : Pred) (s : State) : Host.Outcome State Fault Refusal :=
  vecOp d (fun _ => true) q (fun _ l => (BitVec.ofNat 64 l, {})) s

/-- VMOVI (R350): the immediate's low w bits in every element. -/
def execVmovi (d : Nat) (imm : Int) (t : Ty) (q : Pred) (s : State) :
    Host.Outcome State Fault Refusal :=
  vecOp d (fun _ => true) q (fun _ _ => perElem t (fun _ => (immElem t.width imm, {}))) s

end Sys2Proof.Machine
end

