-- ==== Sys2Proof/Machine/CrossLane.lean ====
section
/-! DEFINITION. Cross-lane instructions, the generator's draws and the accumulator tiles (R275, R331, R332,
R352, R353, R356, R358, R359). -/

namespace Sys2Proof.Machine

/-- VSHFL (R356). -/
def execVshfl (d a : Nat) (b : VOp) (t : Ty) (q : Pred) (s : State) : Host.Outcome State Fault Refusal :=
  vecOp d (fun c => c.vOk a 1 && c.bOk b) q (fun c l =>
    let x := (c.bl b l).toNat % 512
    perElem t (fun j => (elem t.width (c.vl a (x % 32)) ((x / 32 + j) % t.count), {}))) s

/-- VVOTE (R359): the voting set is s[B][31:0] and xm. -/
def execVvote (op : VoteOp) (d p b : Nat) (s : State) : Host.Outcome State Fault Refusal :=
  crewOp (fun s c h =>
    let e := (c.sr b).setWidth 32 &&& c.m.xm
    let v := c.pr p &&& e
    let r : Word := match op with
      | .ballot => v.setWidth 64
      | .any => if v != 0 then 1 else 0
      | .all => if v == e then 1 else 0
      | .count => BitVec.ofNat 64 (popc v.toNat 32)
    s.finish (c.setS d r) h) s

/-! ## Reductions (R352) -/

/-- One step on floats, by the mode (R344, R345). -/
def redStep (op : RedOp) (t : Ty) (mode : Nat) (ftz : Bool) (x y : Nat) : Nat × Fl :=
  match op with
  | .add => addF t mode ftz (operandF ftz t x) (operandF ftz t y)
  | .min => minmaxF t false (operandF ftz t x) (operandF ftz t y)
  | .max => minmaxF t true (operandF ftz t x) (operandF ftz t y)

/-- An input under FTZ (R161). -/
def flushPat (ftz : Bool) (t : Ty) (x : Nat) : Nat :=
  match operandF ftz t x with
  | .fin n 0 _ => if n then Fmt.signBit t else 0
  | _ => x

/-- The running float results with the flags raised so far. -/
def runF (op : RedOp) (t : Ty) (mode : Nat) (ftz : Bool) : List Nat → Nat → Fl → List (Nat × Fl)
  | [], _, _ => []
  | x :: r, acc, fl =>
    let y := redStep op t mode ftz acc (flushPat ftz t x)
    (y.1, fl.or y.2) :: runF op t mode ftz r y.1 (fl.or y.2)

/-- The running integer values, exactly. -/
def runI (op : RedOp) : List Int → Int → List Int
  | [], _ => []
  | x :: r, acc =>
    let y := match op with
      | .add => acc + x
      | .min => min acc x
      | .max => max acc x
    y :: runI op r y

/-- A first or single element as a result (R151, R352): a NaN is produced as the canonical one, and a signalling one
sets IV; every other value stands as it is, flushed under FTZ. DEDUCED (log entry 106). -/
def redFirst (ftz : Bool) (t : Ty) (x : Nat) : Nat × Fl :=
  let v := decodeF t x
  if v.isNan then (Fmt.nan t, { iv := v.sig }) else (flushPat ftz t x, {})

/-- The results r_0, r_1, … for one element position over the active lanes (R352). -/
def redList (op : RedOp) (t : Ty) (mode : Nat) (ftz sat : Bool) : List Nat → List (Nat × Fl)
  | [] => []
  | x :: r =>
    if t.isInt then
      let v := readInt t x
      (v :: runI op (r.map (readInt t)) v).map (fun y =>
        match op with
        | .add => intResult t sat y
        | _ => (wrapTo t.width y, {}))
    else
      let v := redFirst ftz t x
      v :: runF op t mode ftz r v.1 v.2

/-- The mould of VRED and VSCAN. -/
def redOp (scan : Bool) (op : RedOp) (d a : Nat) (t : Ty) (q : Pred) (rnd : Nat) (sat : Bool) (s : State) :
    Host.Outcome State Fault Refusal :=
  crewOp (fun s c h =>
    if !(c.vOk d 1 && c.vOk a 1) then s.illegal c h
    else
      let act := activeLanes (c.em q)
      let cols := (List.range t.count).map (fun j =>
        redList op t (c.rmode rnd) c.ftz sat (act.map (fun l => elem t.width (c.vl a l) j)))
      let pick (i : Nat) (col : List (Nat × Fl)) : Nat × Fl :=
        if scan then col.getD i (0, {}) else col.getLastD (0, {})
      let r := (List.range act.length).map (fun i =>
        let e := cols.map (pick i)
        (act.getD i 0, (packLane t.width (e.map (·.1)), Fl.all (e.map (·.2)))))
      let fl := r.map (fun x => (x.1, x.2.2))
      s.finish ((c.setVs d (r.map (fun x => (x.1, x.2.1)))).raise fl) h (arithTrap c fl)) s

/-- VRED (R352). -/
def execVred (op : RedOp) (d a : Nat) (t : Ty) (q : Pred) (rnd : Nat) (sat : Bool) (s : State) :
    Host.Outcome State Fault Refusal := redOp false op d a t q rnd sat s

/-- VSCAN (R352). -/
def execVscan (op : RedOp) (d a : Nat) (t : Ty) (q : Pred) (rnd : Nat) (sat : Bool) (s : State) :
    Host.Outcome State Fault Refusal := redOp true op d a t q rnd sat s

/-! ## Top-k (R358) -/

/-- A candidate: index, its score as an FP32 pattern. -/
abbrev Cand := Nat × Nat

/-- Candidate order: NaN below every number, descending scores, lower index first. -/
def candBefore (x y : Cand) : Bool :=
  let u := decodeF .f32 x.2
  let v := decodeF .f32 y.2
  if u.isNan && v.isNan then decide (x.1 ≤ y.1)
  else if u.isNan then false
  else if v.isNan then true
  else if ltF false v u then true
  else if ltF false u v then false
  else decide (x.1 ≤ y.1)

/-- VTOPK and VTOPK.g (R358). -/
def execVtopk (d a : Nat) (g : Bool) (k : Nat) (t : Ty) (q : Pred) (s : State) :
    Host.Outcome State Fault Refusal :=
  crewOp (fun s c h =>
    if !(c.vOk d 1 && c.vOk a 1) then s.illegal c h
    else
      let act := activeLanes (c.em q)
      let n := t.count
      let cands : List (Nat × Cand × Fl) := act.flatMap (fun l => (List.range n).map (fun j =>
        let v := operandF c.ftz t (elem t.width (c.vl a l) j)
        let x := convertF .f32 1 false false 0 v
        let y : Nat × Fl :=
          if g then
            let i := (draw c.g.seed (c.g.ctr + BitVec.ofNat 64 j) l).toNat / 2 ^ 54
            let z := addF .f32 1 c.ftz v (decodeF .f16 (gumbel i))
            (z.1, { iv := z.2.iv, ov := z.2.ov, nx := z.2.nx })
          else (x.1, { iv := v.sig })
        (l, (l * n + j, y.1), y.2)))
      let order := sortBy candBefore (cands.map (·.2.1))
      let fl := act.map (fun l => (l, Fl.all ((cands.filter (fun x => x.1 == l)).map (·.2.2))))
      let w := (act.filter (fun l => decide (l < k))).map (fun l =>
        (l, match order[l]? with
          | some x => BitVec.ofNat 64 (x.2 * 2 ^ 32 + x.1)
          | none => (0x7FC00000FFFFFFFF : Word)))
      let c1 := (c.setVs d w).raise fl
      let c2 := if g then { c1 with g := { c1.g with ctr := c.g.ctr + BitVec.ofNat 64 n } } else c1
      s.finish c2 h (arithTrap c fl)) s

/-- VRNG (R353): the counter advances whatever em holds. -/
def execVrng (d : Nat) (t : Ty) (q : Pred) (s : State) : Host.Outcome State Fault Refusal :=
  crewOp (fun s c h =>
    if !c.vOk d 1 then s.illegal c h
    else
      let r := (activeLanes (c.em q)).map (fun l => (l, packLane t.width ((List.range t.count).map (fun j =>
        (draw c.g.seed (c.g.ctr + BitVec.ofNat 64 j) l).toNat % 2 ^ t.width))))
      let c1 := c.setVs d r
      s.finish { c1 with g := { c1.g with ctr := c.g.ctr + BitVec.ofNat 64 t.count } } h) s

/-! ## Accumulator tiles (R30, R331) -/

/-- The number of a tile on the crew's side (R30). -/
def tileNo (h : Cohort) (idx tile : Nat) : Nat := 64 * h.side idx + tile

/-- The key of element (row, column) of a tile. -/
def tileKey (k row col : Nat) : Nat := 1024 * k + 32 * row + col

/-- Elt(l, j) of R331. -/
def tileElt (col : Bool) (i k l j : Nat) : Nat :=
  if col then tileKey k l ((i + j) % 32) else tileKey k ((i + j) % 32) l

/-- The first index of the access: (s[B] + AUX8) mod 32. -/
def tileStart (c : Crew) (b aux : Nat) : Nat := ((c.sr b).toNat + aux) % 32

/-- TRD (R331): rounding, flushing and flags as VCVT from .f32 does; .f32 and .s32 copy the bits. -/
def execTrd (d : Nat) (col : Bool) (tile b aux : Nat) (t : Ty) (q : Pred) (rnd : Nat) (s : State) :
    Host.Outcome State Fault Refusal :=
  crewOp (fun s c h =>
    if !c.vOk d 1 || decide (h.sh.tiles ≤ tile) then s.illegal c h
    else
      let i := tileStart c b aux
      let r := (activeLanes (c.em q)).map (fun l => (l, perElem t (fun j =>
        let x := (SMap.get 0 h.tl.e (tileElt col i (tileNo h c.idx tile) l j)).toNat
        if t = .f32 ∨ t = .s32 then (x, {})
        else convertF t (c.rmode rnd) c.ftz false 0 (operandF c.ftz .f32 x))))
      let fl := r.map (fun x => (x.1, x.2.2))
      s.finish ((c.setVs d (r.map (fun x => (x.1, x.2.1)))).raise fl) h (arithTrap c fl)) s

/-- A .f16 or .bf16 element as FP32, exactly (R331): a NaN becomes the canonical one, a signalling one
sets IV. -/
def widenElem (t : Ty) (x : Nat) : Nat × Fl :=
  if t = .f32 ∨ t = .s32 then (x, {}) else convertF .f32 1 false false 0 (decodeF t x)

/-- Write tile elements, clearing their LS flags, and clear the tile's status (R167, R331), also when no lane is active
and no element is written: the model's choice (log entry 113). -/
def Tiles.write (x : Tiles) (k : Nat) (l : List (Nat × Nat)) : Tiles :=
  let y := l.foldl (fun (t : Tiles) e =>
    { t with e := SMap.set 0 t.e e.1 (BitVec.ofNat 32 e.2), ls := SMap.set false t.ls e.1 false }) x
  { y with st := SMap.set 0 y.st k 0 }

/-- TWR (R331). -/
def execTwr (d : Nat) (col : Bool) (tile b aux : Nat) (t : Ty) (q : Pred) (s : State) :
    Host.Outcome State Fault Refusal :=
  crewOp (fun s c h =>
    if !c.vOk d 1 || decide (h.sh.tiles ≤ tile) then s.illegal c h
    else
      let i := tileStart c b aux
      let k := tileNo h c.idx tile
      let r := (activeLanes (c.em q)).map (fun l => (l, (List.range t.count).map (fun j =>
        (tileElt col i k l j, widenElem t (elem t.width (c.vl d l) j)))))
      let fl := r.map (fun x => (x.1, Fl.all (x.2.map (·.2.2))))
      let f (h : Cohort) : Cohort :=
        { h with tl := h.tl.write k (r.flatMap (fun x => x.2.map (fun e => (e.1, e.2.1)))) }
      (s.modCohort h.uid f).finish (c.raise fl) (f h) (arithTrap c fl)) s

/-- TTEST (R331). -/
def execTtest (d : Nat) (col : Bool) (tile b aux : Nat) (q : Pred) (s : State) :
    Host.Outcome State Fault Refusal :=
  crewOp (fun s c h =>
    if !c.vOk d 1 || decide (h.sh.tiles ≤ tile) then s.illegal c h
    else
      let i := tileStart c b aux
      let k := tileNo h c.idx tile
      s.finish (c.setVs d ((activeLanes (c.em q)).map (fun l =>
        (l, BitVec.ofNat 64 ((List.range 32).foldl (fun n j =>
          if SMap.get false h.tl.ls (tileElt col i k l j) then n + 2 ^ j else n)
          (SMap.get 0 h.tl.st k * 2 ^ 32)))))) h) s

/-- A tile with every element, LS flag and status bit zero (R331). -/
def Tiles.clear (x : Tiles) (k : Nat) : Tiles :=
  { e := x.e.keep (fun n => n / 1024 != k), ls := x.ls.keep (fun n => n / 1024 != k)
    st := SMap.set 0 x.st k 0 }

/-- TZERO (R331). -/
def execTzero (tile : Nat) (s : State) : Host.Outcome State Fault Refusal :=
  crewOp (fun s c h =>
    if h.sh.tiles ≤ tile then s.illegal c h
    else
      let f (h : Cohort) : Cohort := { h with tl := h.tl.clear (tileNo h c.idx tile) }
      (s.modCohort h.uid f).finish c (f h)) s

end Sys2Proof.Machine
end

