-- ==== Sys2Proof/Machine/MemoryInstrs.lean ====
section
/-! DEFINITION. Loads, stores and atomics (R323, R335, R347), sharded access (R142 to R146, R328), the
scratchpad group (R98 to R101, R324, R325), WAITA (R360), PHASE and DRAIN (R113, R114), SHINV (R147,
R148, R321). -/

namespace Sys2Proof.Machine

/-! ## Scalar access -/

/-- The address of SLD and SST (R323). -/
def Crew.slAddr (c : Crew) (a : Nat) (off : Int) (z : Size) : Word :=
  c.sr a + BitVec.ofInt 64 (off * z.bytes)

/-- One aligned lane 0 access, or its MISALIGN fault (R271, R323). -/
def oneLane (va : Word) (z : Size) : List (Nat × Word) × List LaneFault :=
  if va.toNat % z.bytes ≠ 0 then ([], [{ lane := 0, cause := 3, addr := va, rank := 1 }])
  else ([(0, va)], [])

/-- SLD (R323). The scope selects nothing. -/
def execSld (d a : Nat) (off : Int) (z : Size) (scope : Nat) (nt : Bool) (s : State) :
    Host.Outcome State Fault Refusal :=
  crewOp (fun s c h =>
    if 4 < scope ∨ 191 < d + z.regs - 1 then s.illegal c h
    else
      let (ls, bad) := oneLane (c.slAddr a off z) z
      s.memUnit c h { acc := .load, bytes := z.bytes, lanes := ls, nt := nt
                      dst := fun _ k => .s (d + k) } bad) s

/-- SST (R323). -/
def execSst (d a : Nat) (off : Int) (z : Size) (scope : Nat) (nt : Bool) (s : State) :
    Host.Outcome State Fault Refusal :=
  crewOp (fun s c h =>
    if 4 < scope ∨ 191 < d + z.regs - 1 then s.illegal c h
    else
      let (ls, bad) := oneLane (c.slAddr a off z) z
      s.memUnit c h { acc := .store, bytes := z.bytes, lanes := ls, nt := nt, ret := false
                      data := fun _ k => c.sr (d + k) } bad) s

/-! ## Vector access -/

/-- The active lanes of a vector access: those aligned, and the MISALIGN faults of the others (R290). -/
def vecLanes (c : Crew) (q : Pred) (a b al : Nat) : List (Nat × Word) × List LaneFault :=
  let ls := (activeLanes (c.em q)).map (fun l => (l, laneAddr c a b l))
  (ls.filter (fun l => l.2.toNat % al == 0),
    (ls.filter (fun l => l.2.toNat % al != 0)).map
      (fun l => { lane := l.1, cause := 3, addr := l.2, rank := 1 }))

/-- The destination lane of word `k` (R276). -/
def vDst (c : Crew) (d lane k : Nat) : Dst := .v (32 * (c.vix d + k) + lane)

/-- VLD (R347). -/
def execVld (d a b : Nat) (z : Size) (q : Pred) (scope : Nat) (nt : Bool) (s : State) :
    Host.Outcome State Fault Refusal :=
  crewOp (fun s c h =>
    if 4 < scope ∨ !(c.vOk d z.regs && c.vOk a 1) then s.illegal c h
    else
      let (ls, bad) := vecLanes c q a b z.bytes
      s.memUnit c h { acc := .load, bytes := z.bytes, lanes := ls, nt := nt
                      dst := fun l k => vDst c d l k } bad) s

/-- VST (R347). -/
def execVst (d a b : Nat) (z : Size) (q : Pred) (scope : Nat) (nt : Bool) (s : State) :
    Host.Outcome State Fault Refusal :=
  crewOp (fun s c h =>
    if 4 < scope ∨ !(c.vOk d z.regs && c.vOk a 1) then s.illegal c h
    else
      let (ls, bad) := vecLanes c q a b z.bytes
      s.memUnit c h { acc := .store, bytes := z.bytes, lanes := ls, nt := nt, ret := false
                      data := fun l k => c.vl (d + k) l } bad) s

/-! ## Lane-private memory (R104) -/

/-- The per-lane size of an instance (R104). -/
def State.lpSize (s : State) (h : Cohort) : Nat := match s.inst? h.inst with
  | some a => a.a.lpSize
  | none => 0

/-- Where offset `o` of lane `l` lies in its crew's region (R104). -/
def lpKey (o l : Nat) : Nat := o / 8 * 256 + 8 * l + o % 8

/-- The address of an access (R104, R235). -/
def State.lpAddr (s : State) (c : Crew) (h : Cohort) (o l : Nat) : Word :=
  let base := match s.inst? h.inst with
    | some a => a.a.lpVa + BitVec.ofNat 64 (h.lp.getD 0 * (128 * 32 * a.a.lpSize) + 32 * a.a.lpSize * c.idx)
    | none => 0
  base + BitVec.ofNat 64 (lpKey o l)

/-- The lanes of a lane-private access with their offsets, and the faults of the others: alignment is that
of the offset, decided first (R104, R290, R347). -/
def State.lpLanes (s : State) (c : Crew) (h : Cohort) (q : Pred) (a b n : Nat) :
    List (Nat × Nat) × List LaneFault :=
  (activeLanes (c.em q)).foldl (fun (ok, bad) l =>
    let o := (laneAddr c a b l).toNat
    let f (cause : Nat) : LaneFault := { lane := l, cause := cause, addr := s.lpAddr c h o l, rank := 1 }
    if o % n ≠ 0 then (ok, bad ++ [f 3])
    else if s.lpSize h < o + n then (ok, bad ++ [f 4])
    else (ok ++ [(l, o)], bad)) ([], [])

/-- An access of `n` bytes at an offset of a lane meets poisoned data at the home of its region (R104, R244). -/
def State.lpPoisoned (s : State) (c : Crew) (h : Cohort) (o l n : Nat) : Bool :=
  (wordsOf n).any (fun w =>
    let va := s.lpAddr c h (o + w.2.1) l
    match s.route va, s.xlateNow h.ctx va .load with
    | .own _, .home k => s.poisoned (k + va.toNat % 2 ^ 16) w.2.2
    | _, _ => false)

/-- The lanes of a lane-private read on sound data, and the ECC faults of the others with the faults found before (R210,
R244). -/
def State.lpSound (s : State) (c : Crew) (h : Cohort) (n : Nat) (x : List (Nat × Nat) × List LaneFault) :
    List (Nat × Nat) × List LaneFault :=
  (x.1.filter (fun l => !s.lpPoisoned c h l.2 l.1 n),
    x.2 ++ (x.1.filter (fun l => s.lpPoisoned c h l.2 l.1 n)).map (fun l =>
      { lane := l.1, cause := 15, addr := s.lpAddr c h l.2 l.1, rank := 1 }))

/-- VLD of lane-private memory (R347). -/
def execVldLp (d a b : Nat) (z : Size) (q : Pred) (s : State) : Host.Outcome State Fault Refusal :=
  crewOp (fun s c h =>
    if !(c.vOk d z.regs && c.vOk a 1) then s.illegal c h
    else
      let (ls, bad) := s.lpSound c h z.bytes (s.lpLanes c h q a b z.bytes)
      let c1 := ls.foldl (fun (c1 : Crew) l => (wordsOf z.bytes).foldl (fun (c1 : Crew) w =>
        c1.setV (d + w.1) l.1 (BitVec.ofNat 64 (leVal ((List.range w.2.2).map (fun i =>
          SMap.get 0 c.x.lp (lpKey (l.2 + w.2.1 + i) l.1)))))) c1) c
      s.finish c1 h (laneTrap c bad)) s

/-- VST to lane-private memory (R347). -/
def execVstLp (d a b : Nat) (z : Size) (q : Pred) (s : State) : Host.Outcome State Fault Refusal :=
  crewOp (fun s c h =>
    if !(c.vOk d z.regs && c.vOk a 1) then s.illegal c h
    else
      let (ls, bad) := s.lpLanes c h q a b z.bytes
      let m := ls.foldl (fun m l => (wordsOf z.bytes).foldl (fun m w =>
        (List.range w.2.2).foldl (fun m i =>
          SMap.set 0 m (lpKey (l.2 + w.2.1 + i) l.1)
            (BitVec.ofNat 8 ((c.vl (d + w.1) l.1).toNat / 256 ^ i))) m) m) c.x.lp
      s.finish { c with x := { c.x with lp := m } } h (laneTrap c bad)) s

/-! ## Atomics (R117, R335) -/

/-- The mould of VATOM: at the home, or at the scratchpad in ascending lane order. One that performs no lane is no effect
(R245). -/
def atomOp (n : Nat) (op : AtOp) (d a b : Nat) (q : Pred) (scope : Nat) (noret sp : Bool) (s : State) :
    Host.Outcome State Fault Refusal :=
  crewOp (fun s c h =>
    let regs := if op = .cas then 2 else 1
    if 4 < scope ∨ !(c.vOk d regs && c.vOk a 1) then s.illegal c h
    else
      if sp then
        let (ls, bad) := s.spSound h n (spLanes c h q a b n n)
        let (h1, c1) := ls.foldl (fun (x : Cohort × Crew) l =>
          let m := x.1.spRead l.2 n
          let v := atomNew op n m (c.vl d l.1) (c.vl (d + 1) l.1)
          (x.1.spWrite l.2 n v, if noret then x.2 else x.2.setV d l.1 m)) (h, c)
        let h1 := if ls.isEmpty then h1 else h1.affect
        (s.modCohort h.uid (fun _ => h1)).finish c1 h1 (laneTrap c bad)
      else
        let (ls, bad) := vecLanes c q a b n
        s.memUnit c h
          { acc := .atomic, bytes := n, lanes := ls, ret := !noret, op := some op
            dst := fun l k => vDst c d l k, data := fun l _ => lowBytes n (c.vl d l)
            swap := fun l => lowBytes n (c.vl (d + 1) l) } bad) s

/-- VATOM, 32-bit (R335). -/
def execVatom32 (op : AtOp) (d a b : Nat) (q : Pred) (scope : Nat) (noret sp : Bool) (s : State) :
    Host.Outcome State Fault Refusal := atomOp 4 op d a b q scope noret sp s

/-- VATOM, 64-bit (R335). -/
def execVatom64 (op : AtOp) (d a b : Nat) (q : Pred) (scope : Nat) (noret sp : Bool) (s : State) :
    Host.Outcome State Fault Refusal := atomOp 8 op d a b q scope noret sp s

/-! ## Sharded access (R142 to R146) -/

/-- The key of a tensor's rows in a Marl cache: context and tensor id. -/
def marlKey (ctx tensor : Nat) : Nat := ctx * 4096 + tensor

/-- What a descriptor or a map entry answers: its words, a fault with the device that failed it and whether that
one is fenced, or what its read waits for; `far` is a read from another device, or from host memory at a home. -/
inductive MarlRes where
  | words (l : List Word)
  | fault (cause : Nat) (xdev : Option Nat) (fence : Bool)
  | need
  | page (kind : Nat)
  | far (dev : Option Nat) (key : Nat)
deriving DecidableEq, Repr

/-- The answer to a read of an entry from elsewhere, if it has come (R145): a read that timed out fails as
ACCESS. -/
def State.marlAnswer (s : State) (c : Crew) (va : Word) (dev : Option Nat) (key : Nat) : MarlRes :=
  match s.mem.remote.find? (fun r => r.who == .marl c.uid c.idx && r.va == va) with
  | none => .far dev key
  | some r => match r.ans with
    | none => .far dev key
    | some (v, bad) =>
      if !bad then .words r.got
      else if r.late then .fault 4 (some (dev.getD s.devid)) false
      else .fault (failCause v) (if failCause v = 6 then dev else none) false

/-- Read an entry of `n` words through the die's Marl cache (R143): the version that the unit already uses, else
the cached one, else memory, all its words at one instant. An entry that is not 8-byte aligned faults with MISALIGN,
and a descriptor that crosses a page is read on in the frame of its first: the model's choice (log entry 99). -/
def State.marlEntry (s : State) (c : Crew) (h : Cohort) (tensor : Nat) (va : Word) (n : Nat) : MarlRes :=
  let core := h.coreOf c.idx
  if va.toNat % 8 ≠ 0 then .fault 3 none false
  else match c.w.marl.find? (fun e => e.2.1 == va.toNat && e.2.2.length == n) with
  | some e => .words e.2.2
  | none =>
    match s.mmu.marl.find? (fun e => e.1 == dieOf core && e.2.1 == marlKey h.ctx tensor && e.2.2.1 == va
        && e.2.2.2.length == n) with
    | some e => .words e.2.2.2
    | none =>
      match s.lane c core h.ctx va .load with
      | .fault f => .fault f none false
      | .home k =>
        if k / 2 ^ 56 = 2 then s.marlAnswer c va none k
        else if s.poisoned k (8 * n) then .fault 15 none false
        else .words ((List.range n).map (fun i => s.readKey (k + 8 * i) 8))
      | .req k => .page k
      | .need => .need
      | .fenced d => .fault 4 (some d) true
      | .remote d => s.marlAnswer c va (some d) 0

/-- A shard descriptor (R142). -/
structure Desc where
  oob : Bool
  elog : Nat
  map : Word
  dim : List Nat
  ext : List Nat
  grid : List Nat
  ok : Bool
deriving DecidableEq, Repr

/-- Read a descriptor's eight words (R142): its fields, and whether it is well formed. -/
def descOf (w : List Word) : Desc :=
  let n (k : Nat) : Nat := (w.getD k 0).toNat
  let pair (k : Nat) : List Nat := [n k % 2 ^ 32, n k / 2 ^ 32]
  let dim := pair 2 ++ pair 3
  let ext := pair 4 ++ pair 5
  let grid := (List.range 4).map (fun i => n 6 / 2 ^ (16 * i) % 2 ^ 16)
  let rank := n 0 % 8
  let unused := (List.range 4).all (fun d => decide (d < rank)
    || (dim.getD d 0 == 1 && ext.getD d 0 == 1 && grid.getD d 0 == 1))
  let exact := (List.range 4).all (fun d => decide (1 ≤ ext.getD d 0)
    && grid.getD d 0 == (dim.getD d 0 + ext.getD d 0 - 1) / ext.getD d 0)
  { oob := bitOf (n 0) 12, elog := bitsOf (n 0) 9 8, map := w.getD 1 0, dim := dim, ext := ext, grid := grid
    ok := n 0 / 2 ^ 13 == 0 && bitsOf (n 0) 11 10 == 0 && bitsOf (n 0) 7 3 == 0 && decide (1 ≤ rank)
      && decide (rank ≤ 4) && unused && exact && n 7 / 2 ^ 32 == 0
      && n 7 == grid.foldl (· * ·) 1 }

/-- Row-major index (R145). -/
def rowMajor (i n : List Nat) : Nat := (List.range 4).foldl (fun acc d => acc * n.getD d 1 + i.getD d 0) 0

/-- The coordinates of a lane (R144). -/
def coords (c : Crew) (a l : Nat) : List Nat :=
  [(c.vl a l).toNat % 2 ^ 32, (c.vl a l).toNat / 2 ^ 32, (c.vl (a + 1) l).toNat % 2 ^ 32,
    (c.vl (a + 1) l).toNat / 2 ^ 32]

/-- What resolution says of a lane (R145). -/
inductive Shard where
  | bad
  | pad
  | at (map : Word) (off : Nat)
deriving DecidableEq, Repr

/-- Resolve a lane against a descriptor (R145): ACCESS, a pad, or its map entry and offset. -/
def resolve (t : Nat) (x : Desc) (i : List Nat) : Shard :=
  if !x.ok || x.elog != t then .bad
  else if (List.range 4).any (fun d => decide (x.dim.getD d 0 ≤ i.getD d 0)) then
    (if x.oob then .bad else .pad)
  else
    let q := (List.range 4).map (fun d => i.getD d 0 / x.ext.getD d 1)
    let w := (List.range 4).map (fun d => i.getD d 0 % x.ext.getD d 1)
    .at (x.map + BitVec.ofNat 64 (8 * rowMajor q x.grid)) (rowMajor w x.ext * 2 ^ t)

/-- Keep the entries that the unit uses, with the time of the first, and fill the die's Marl cache with those just read (R143), unless an
invalidation has passed since the unit began to read them (R148); the oldest entries of a full cache leave (log
entry 15). -/
def State.keepMarl (s : State) (c : Crew) (h : Cohort) (tensor : Nat) (es : List (Word × List Word)) :
    State × Crew :=
  let die := dieOf (h.coreOf c.idx)
  let fresh := es.filter (fun e => !(c.w.marl.any (fun x => x.2.1 == e.1.toNat && x.2.2.length == e.2.length)))
  let new_ := if c.w.stale then [] else fresh.filter (fun w => !(s.mmu.marl.any (fun e =>
    e.1 == die && e.2.1 == marlKey h.ctx tensor && e.2.2.1 == w.1 && e.2.2.2.length == w.2.length)))
  let rows := new_.map (fun w => (die, marlKey h.ctx tensor, w.1, w.2)) ++ s.mmu.marl
  let mine := (rows.filter (fun e => e.1 == die)).take 256
  ({ s with mmu := { s.mmu with marl := rows.filter (fun e => e.1 != die) ++ mine } },
    { c with w := { c.w with
      marl := c.w.marl ++ fresh.map (fun e => (marlKey h.ctx tensor, e.1.toNat, e.2))
      res := if c.w.marl.isEmpty then s.fresh.id else c.w.res } })

/-- Send the read of an entry of `n` words to where it lies: one request, whose words come together (R143). -/
def State.askMarl (s : State) (c : Crew) (h : Cohort) (va : Word) (n : Nat) (dev : Option Nat) (key : Nat) :
    State :=
  let who : Asker := .marl c.uid c.idx
  if s.mem.remote.any (fun r => r.who == who && r.va == va) then s
  else match dev with
    | some d => (s.newRemote (dieOf (h.coreOf c.idx)) d h.ctx who va (8 * n) (.load (8 * n))).1
    | none => (s.newHost h.ctx key who va (8 * n) (.load (8 * n))).1

/-- Obtain entries of `n` words of the descriptor or map: read what can be read, ask for what cannot. The answer
is the state with the crew waiting, or the entries and the faults. -/
def State.marlEntries (s : State) (c : Crew) (h : Cohort) (tensor : Nat) (vas : List Word) (n : Nat) :
    State ⊕ (State × Crew × List (Word × MarlRes)) :=
  let rs := vas.map (fun va => (va, s.marlEntry c h tensor va n))
  let need := rs.filter (fun r => r.2 == .need)
  let pages := rs.filterMap (fun r => match r.2 with | .page k => some (vaPage r.1, k) | _ => none)
  let far := rs.filterMap (fun r => match r.2 with | .far d k => some (r.1, d, k) | _ => none)
  if !need.isEmpty then
    .inl (s.putCrew { c with
      w := { c.w with kind := .none }
      x := { c.x with xwait := (need.map (fun r => (vaPage r.1, Acc.load))).eraseDups } })
  else match pages.eraseDups with
    | p :: r =>
      let s := (p :: r).foldl (fun s p => s.joinMerge h.ctx p.1 p.2 c.r.pc) s
      .inl (s.waitOn { c with w := { c.w with begun := true, pages := ((p :: r).map (·.1)).eraseDups } } (.page p.1))
    | [] =>
      if far.isEmpty then
        let got := rs.filterMap (fun r => match r.2 with | .words v => some (r.1, v) | _ => none)
        let (s, c) := s.keepMarl c h tensor got
        .inr (s, c, rs)
      else
        .inl ((far.foldl (fun s f => s.askMarl c h f.1 n f.2.1 f.2.2) s).waitOn
          { c with w := { c.w with begun := true } } .remote)

/-- The requests of a crew for descriptor words are over. -/
def State.endMarl (s : State) (c : Crew) : State :=
  { s with mem := { s.mem with
      remote := s.mem.remote.filter (fun r => r.who != .marl c.uid c.idx) } }

/-- XTO of a descriptor or map read that fails as a timeout does (R145). -/
def marlXsr (now : Nat) (c : Crew) (rs : List (Word × MarlRes)) : Crew :=
  rs.foldl (fun c r => match r.2 with
    | .fault 4 (some d) _ => c.setXsr now 0 d
    | _ => c) c

/-- The fault of a lane whose descriptor or map entry at `va` could not be read (R145): FADDR is the entry's
address. -/
def marlFault (l : Nat) (va : Word) (cause : Nat) (x : Option Nat) (fence : Bool) : LaneFault :=
  { lane := l, cause := cause, addr := va, rank := 0, xdev := if cause = 6 then x else none, fence := fence }

/-- The VA of a tensor's descriptor in the context's shard table (R142). -/
def State.descVa (s : State) (ctxn tensor : Nat) : Word :=
  (match s.ctx? ctxn with
   | some x => x.shard
   | none => 0) + BitVec.ofNat 64 (64 * tensor)

/-- The faults of resolution (R145): lanes without a place, at the descriptor's address, and lanes whose map entry
cannot be read. -/
def shardBad (dva : Word) (entry : Word → MarlRes) (ls : List (Nat × Shard)) : List LaneFault :=
  ls.filterMap (fun l => match l.2 with
    | .bad => some { lane := l.1, cause := 4, addr := dva, rank := 0 }
    | .at m _ => match entry m with
      | .fault f y z => some (marlFault l.1 m f y z)
      | _ => none
    | .pad => none)

/-- The resolved addresses of the lanes that have one (R145). -/
def shardVas (entry : Word → MarlRes) (ls : List (Nat × Shard)) : List (Nat × Word) :=
  ls.filterMap (fun l => match l.2 with
    | .at m off => match entry m with
      | .words v => some (l.1, v.headD 0 + BitVec.ofNat 64 off)
      | _ => none
    | _ => none)

/-- The rank of a lane in the passes of a sharded access: above resolution, by owner key (R146). -/
def ownerRank (va : Word) : Nat := va.toNat / 2 ^ 52 + 1

/-- Lanes whose resolution is all that they do (R145): those that fault in it, and the pads. They are done with. -/
def Crew.resolved (c : Crew) (bad : List LaneFault) (pads : List Nat) : Crew :=
  { c with w := { c.w with
    done := c.w.done ||| maskOf (bad.map (·.lane) ++ pads)
    lf := c.w.lf ++ bad } }

/-- The mould of TLD and TST (R144 to R146). Faults of resolution come before those of the passes, whose
order is that of the owner keys. A lane that is done is not resolved again; what its resolution has met stands, whatever
the passes then wait for. -/
def shardOp (load : Bool) (d a b t : Nat) (q : Pred) (nt : Bool) (s : State) :
    Host.Outcome State Fault Refusal :=
  crewOp (fun s c h =>
    if !(c.vOk a 2 && c.vOk d 1) then s.illegal c h
    else
      let tensor := (c.sr b).toNat % 4096
      let dva := s.descVa h.ctx tensor
      let u : MemUnit :=
        { acc := if load then .load else .store, bytes := 2 ^ t, lanes := [], nt := nt, ret := load
          rank := ownerRank, dst := fun l k => vDst c d l k, data := fun l _ => lowBytes (2 ^ t) (c.vl d l)
          tensor := some tensor, wait := true }
      let todo := c.todo q
      if todo.isEmpty then s.memUnit c h u []
      else
      match s.marlEntries c h tensor [dva] 8 with
      | .inl s => s
      | .inr (s, c, rs) =>
        match (rs.head?.map (·.2)).getD .need with
        | .words ws =>
          let x := descOf ws
          let ls := todo.map (fun l => (l, resolve t x (coords c a l)))
          let maps := (ls.filterMap (fun l => match l.2 with | .at m _ => some m | _ => none)).eraseDups
          match s.marlEntries c h tensor maps 1 with
          | .inl s => s
          | .inr (s, c, ms) =>
            let c := marlXsr s.clk.cycle c ms
            let entry (m : Word) : MarlRes := (ms.find? (fun e => e.1 == m)).elim .need (·.2)
            let vas := shardVas entry ls
            let bad1 : List LaneFault := (vas.filter (fun l => l.2.toNat % 2 ^ t != 0)).map (fun l =>
              { lane := l.1, cause := 3, addr := l.2, rank := ownerRank l.2 })
            let pads := (ls.filter (fun l => l.2 == .pad)).map (·.1)
            let c1 := if load then c.setVs d (pads.map (fun l => (l, (0 : Word)))) else c
            (s.endMarl c).memUnit (c1.resolved (shardBad dva entry ls ++ bad1) pads) h
              { u with lanes := vas.filter (fun l => l.2.toNat % 2 ^ t == 0) } []
        | .fault f x z =>
          (s.endMarl c).memUnit ((marlXsr s.clk.cycle c rs).resolved (todo.map (fun l => marlFault l dva f x z)) [])
            h u []
        | _ => s) s

/-- TLD (R144 to R146, R328). -/
def execTld (d a b elog : Nat) (q : Pred) (nt : Bool) (s : State) : Host.Outcome State Fault Refusal :=
  shardOp true d a b elog q nt s

/-- TST (R144 to R146, R328). -/
def execTst (d a b elog : Nat) (q : Pred) (nt : Bool) (s : State) : Host.Outcome State Fault Refusal :=
  shardOp false d a b elog q nt s

/-! ## The scratchpad group (R98 to R101, R324, R325) -/

/-- SPLD (R324). -/
def execSpld (d a b : Nat) (z : Size) (q : Pred) (s : State) : Host.Outcome State Fault Refusal :=
  crewOp (fun s c h =>
    if !(c.vOk d z.regs && c.vOk a 1) then s.illegal c h
    else
      let (ls, bad) := s.spSound h z.bytes (spLanes c h q a b z.bytes z.bytes)
      let c1 := ls.foldl (fun (c1 : Crew) l => (wordsOf z.bytes).foldl (fun (c1 : Crew) w =>
        c1.setV (d + w.1) l.1 (h.spRead (l.2 + w.2.1) w.2.2)) c1) c
      s.finish c1 h (laneTrap c bad)) s

/-- SPST (R324): ascending lane order. Scratchpad accesses are performed when they issue: of the orders that R101
leaves open the model takes that one (log entry 80). -/
def execSpst (d a b : Nat) (z : Size) (q : Pred) (s : State) : Host.Outcome State Fault Refusal :=
  crewOp (fun s c h =>
    if !(c.vOk d z.regs && c.vOk a 1) then s.illegal c h
    else
      let (ls, bad) := spLanes c h q a b z.bytes z.bytes
      let h1 := ls.foldl (fun (h1 : Cohort) l => (wordsOf z.bytes).foldl (fun (h1 : Cohort) w =>
        h1.spWrite (l.2 + w.2.1) w.2.2 (c.vl (d + w.1) l.1)) h1) h
      (s.modCohort h.uid (fun _ => h1)).finish c h1 (laneTrap c bad)) s

/-- SPLD.st: 1 for a full word (R99). -/
def execSpldSt (d a b : Nat) (q : Pred) (s : State) : Host.Outcome State Fault Refusal :=
  crewOp (fun s c h =>
    if !(c.vOk d 1 && c.vOk a 1) then s.illegal c h
    else
      let (ls, bad) := spLanes c h q a b 8 8
      s.finish (c.setVs d (ls.map (fun l => (l.1, if h.full l.2 then 1 else 0)))) h (laneTrap c bad)) s

/-- Another crew of the cohort that began to wait for this word earlier is served first (R100). -/
def State.spEarlier (s : State) (c : Crew) (off : Nat) (full : Bool) : Bool :=
  s.crews.any (fun d => d.uid == c.uid && d.idx != c.idx && d.w.kind == .sp off full
    && (c.w.kind != .sp off full || decide (d.w.seq < c.w.seq)))

/-- Serve the lanes in ascending order until one must wait (R324, R325): the state of the scratchpad and
the crew, and the offset waited for. A crew that has been served waits anew (R100). A word with poisoned data is
not taken: the lane takes ECC (R210, R244). -/
def serveSp (s : State) (take : Bool) (d : Nat) : List (Nat × Nat) → Cohort → Crew → Cohort × Crew × Option Nat
  | [], h, c => (h, c, none)
  | (l, off) :: r, h, c =>
    if h.full off != take || s.spEarlier c off take then (h, c, some off)
    else
      let bad := take && s.spPoisoned h off 8
      let c1 := { c with w := { c.w with
        kind := .none
        done := c.w.done ||| (1#32 <<< l)
        lf := if bad then c.w.lf ++ [{ lane := l, cause := 15, addr := BitVec.ofNat 64 off, rank := 1 }] else c.w.lf } }
      if bad then serveSp s take d r h c1
      else if take then serveSp s take d r (h.setFull off false) (c1.setV d l (h.sp64 off))
      else serveSp s take d r ((h.setSp off (c.vl d l)).setFull off true) c1

/-- The mould of SPLDS (`take`) and SPSTF. -/
def spWait (take : Bool) (d a b : Nat) (q : Pred) (s : State) : Host.Outcome State Fault Refusal :=
  crewOp (fun s c h =>
    if !(c.vOk d 1 && c.vOk a 1) then s.illegal c h
    else
      let (ls, bad) := spLanes c h q a b 8 8
      let c := { c with w := { c.w with
        lf := c.w.lf ++ bad, done := c.w.done ||| maskOf (bad.map (·.lane)) } }
      let (h1, c1, w) := serveSp s take d ls h c
      let s1 := s.modCohort h.uid (fun _ => h1)
      match w with
      | none => s1.finish c1 h1 (laneTrap c1 c1.w.lf)
      | some off => s1.waitOn c1 (.sp off take)) s

/-- SPLDS: waits for a full word, takes it and marks it empty (R99). -/
def execSplds (d a b : Nat) (q : Pred) (s : State) : Host.Outcome State Fault Refusal :=
  spWait true d a b q s

/-- SPSTF: waits for an empty word, stores it and marks it full (R99). -/
def execSpstf (d a b : Nat) (q : Pred) (s : State) : Host.Outcome State Fault Refusal :=
  spWait false d a b q s

/-- SPSET (R99). -/
def execSpset (f : Bool) (a b : Nat) (q : Pred) (s : State) : Host.Outcome State Fault Refusal :=
  crewOp (fun s c h =>
    if !c.vOk a 1 then s.illegal c h
    else
      let (ls, bad) := spLanes c h q a b 8 8
      let h1 := ls.foldl (fun (h1 : Cohort) l => h1.setFull l.2 f) h
      (s.modCohort h.uid (fun _ => h1)).finish c h1 (laneTrap c bad)) s

/-! ## WAITA (R360) -/

/-- The comparisons of WAITA. -/
def wHolds (k : WCmp) (v w : Word) : Bool :=
  match k with
  | .eq => v == w
  | .ne => v != w
  | .gen => decide (w.toNat ≤ v.toNat)
  | .ltn => decide (v.toNat < w.toNat)

/-- A one-lane fault of WAITA (R360). -/
def waitaFault (c : Crew) (cause : Nat) (va : Word) (x : Option Nat := none) (fence : Bool := false) :
    Option Trap :=
  laneTrap c [{ lane := 0, cause := cause, addr := va, rank := 1, xdev := x, fence := fence }]

/-- The crew watches no word any longer. -/
def State.endWatch (s : State) (c : Crew) : State :=
  { s with mem := { s.mem with remote := s.mem.remote.filter (fun r => r.who != .waita c.uid c.idx c.g.hnd) } }

/-- The end of a WAITA: s[D] takes the word, then the acquire of device scope, which needs the crew's
earlier loads returned (R111, R116). -/
def State.waitaEnd (s : State) (c : Crew) (h : Cohort) (d : Nat) (v : Word) (t : Option Trap) : State :=
  if s.mem.loads.any (fun l => l.uid == c.uid && l.idx == c.idx) then
    s.putCrew { c with w := { c.w with kind := .none } }
  else (s.endWatch c).finish ((s.acquired c h 3).setS d v) h t

/-- Send the watch of a word on another device to its home (R360). -/
def State.newWatch (s : State) (c : Crew) (h : Cohort) (dev : Nat) (va : Word) : State :=
  let rid := s.fresh.id
  let port := s.accessPort (dieOf (h.coreOf c.idx)) dev va
  let r : Remote := { rid := rid, who := .waita c.uid c.idx c.g.hnd, va := va, n := 8, sent := s.clk.ns, port := port }
  (s.putRemote r).send (.watch dev (port.getD 0) rid h.ctx (s.genOf h.ctx) va)

/-- The crew's watch of a word. -/
def State.watchOf (s : State) (c : Crew) (va : Word) : Option Remote :=
  s.mem.remote.find? (fun r => r.who == .waita c.uid c.idx c.g.hnd && r.va == va)

/-- The trap of a WAITA whose word cannot be reached, under TRAPEN.XTO (R200, R201). -/
def waitaLate (c : Crew) (va : Word) (dev : Nat) (fence : Bool) : Option Trap :=
  if c.trapXto then waitaFault c 4 va (some dev) fence else none

/-- WAITA on a word that lies on another device, or in host memory, where the device is this one (R209, R360): `ask`
sends the watch, or the read. A watch that has timed out ends it, as soon as the crew's earlier loads have returned. -/
def State.waitaFar (s : State) (c : Crew) (h : Cohort) (k : WCmp) (d b dev : Nat) (va : Word) (ask : State) : State :=
  match s.watchOf c va with
  | none => ask.waitOn c (.waita k va (c.sr b))
  | some r => match r.ans with
    | none => s.waitOn c (.waita k va (c.sr b))
    | some (v, false) =>
      if r.late then s.waitaEnd (c.setXsr s.clk.cycle 0 dev) h d (allOnes 8) (waitaLate c va dev false)
      else if wHolds k v (c.sr b) then s.waitaEnd c h d v none
      else s.waitOn c (.waita k va (c.sr b))
    | some (v, true) => (s.endWatch c).finish c h (waitaFault c (failCause v) va (some dev))

/-- WAITA on a global word (R360). It waits for the crew's own stores to the word and loads of it, and for the stores
that the crew has seen at L1 (R108). -/
def execWaita (k : WCmp) (d a b : Nat) (s : State) : Host.Outcome State Fault Refusal :=
  crewOp (fun s c h =>
    let va := c.sr a
    if va.toNat % 8 ≠ 0 then s.finish c h (waitaFault c 3 va)
    else if s.mem.log.any (fun e => e.uid == c.uid && e.idx == c.idx && e.page == vaPage va) then
      s.waitOn c (.logPage (vaPage va))
    else if s.mem.stores.any (fun e => ((e.uid == c.uid && e.idx == c.idx) || c.x.musts.contains e.id)
          && e.va.toNat / 8 == va.toNat / 8)
        || s.mem.loads.any (fun l => l.uid == c.uid && l.idx == c.idx
          && l.parts.any (fun p => p.va.toNat / 8 == va.toNat / 8)) then
      s.putCrew { c with w := { c.w with kind := .none } }
    else match s.lane c (h.coreOf c.idx) h.ctx va .load with
      | .fault f => (s.endWatch c).finish c h (waitaFault c f va)
      | .need => s.putCrew { c with
          w := { c.w with kind := .none }, x := { c.x with xwait := [(vaPage va, .load)] } }
      | .req j => (s.joinMerge h.ctx (vaPage va) j c.r.pc).waitOn
          { c with w := { c.w with begun := true, pages := [vaPage va] } } (.page (vaPage va))
      | .home key =>
        if key / 2 ^ 56 = 2 then
          s.waitaFar c h k d b s.devid va (s.newHost h.ctx key (.waita c.uid c.idx c.g.hnd) va 8 (.load 8)).1
        else if s.poisoned key 8 then s.finish c h (waitaFault c 15 va)
        else
          let v := s.readKey key 8
          if wHolds k v (c.sr b) then s.waitaEnd c h d v none
          else s.waitOn c (.waita k va (c.sr b))
      | .fenced x => s.waitaEnd (c.setXsr s.clk.cycle 0 x) h d (allOnes 8) (waitaLate c va x true)
      | .remote x => s.waitaFar c h k d b x va (s.newWatch c h x va)) s

/-- WAITA on a scratchpad word (R360): the full/empty bit is unchanged, and there is no acquire. -/
def execWaitaSp (k : WCmp) (d a b : Nat) (s : State) : Host.Outcome State Fault Refusal :=
  crewOp (fun s c h =>
    let off := c.sr a
    match spFault h off 8 8 with
    | some f => s.finish c h (waitaFault c f off)
    | none =>
      let v := h.sp64 off.toNat
      if s.spPoisoned h off.toNat 8 then s.finish c h (waitaFault c 15 off)
      else if wHolds k v (c.sr b) then s.finish (c.setS d v) h
      else s.waitOn c (.waitaSp k off.toNat (c.sr b))) s

/-! ## PHASE, DRAIN and SHINV -/

/-- Scope 0 means device (R113). -/
def scopeOf (n : Nat) : Nat := if n = 0 then 3 else n

/-- PHASE (R113): a release, then an acquire. -/
def execPhase (scope : Nat) (s : State) : Host.Outcome State Fault Refusal :=
  crewOp (fun s c h => s.releasing c h (scopeOf scope) (s.finish (s.acquired c h (scopeOf scope)) h)) s

/-- PHASE.REL (R113). -/
def execPhaseRel (scope : Nat) (s : State) : Host.Outcome State Fault Refusal :=
  crewOp (fun s c h => s.releasing c h (scopeOf scope) (s.finish c h)) s

/-- PHASE.ACQ (R111, R113): completes when every earlier load of the crew has returned. -/
def execPhaseAcq (scope : Nat) (s : State) : Host.Outcome State Fault Refusal :=
  crewOp (fun s c h =>
    if s.mem.loads.any (fun l => l.uid == c.uid && l.idx == c.idx) then s
    else s.finish (s.acquired c h (scopeOf scope)) h) s

/-- DRAIN (R113, R137): waits for the crew's non-temporal stores, side-logged ones included. Its wait for a
side-logged one is a blocking point, as a release's is (R110): the model's choice (log entry 81). -/
def execDrain (s : State) : Host.Outcome State Fault Refusal :=
  crewOp (fun s c h =>
    match c.fail with
    | some (_, t) => s.orderTrap c h t
    | none =>
      if s.mem.log.any (fun e => e.uid == c.uid && e.idx == c.idx && e.nt) then s.waitOn c .release
      else if s.mem.stores.any (fun e => e.uid == c.uid && e.idx == c.idx && e.nt) then
        s.putCrew { c with w := { c.w with kind := .none } }
      else s.finish c h) s

/-- A unit under way has resolved with a tensor's entries, of whatever context. -/
def WaitSt.resolvedWith (w : WaitSt) (tensor : Nat) : Bool := w.marl.any (fun e => e.1 % 4096 == tensor)

/-- Drop a tensor's entries from the Marl caches (R148). What a unit under way has read or is reading of entries
does not come back into them. Entries of that tensor number go, and are waited for, in every context: the model's choice
(log entry 112). -/
def State.dropMarl (s : State) (tensor : Nat) : State :=
  { s with
    mmu := { s.mmu with marl := s.mmu.marl.filter (fun e => e.2.1 % 4096 != tensor) }
    crews := s.crews.map (fun c =>
      let late (w : WaitSt) : WaitSt :=
        if w.resolvedWith tensor || s.mem.remote.any (fun r => r.who == .marl c.uid c.idx) then { w with stale := true }
        else w
      { c with w := late c.w, h := { c.h with w := late c.h.w } }) }

/-- SHINV (R147, R148, R321): the checks, the release of domain scope, a place among the die's 16, and the
hand-off, which relays to at most 8 devices. -/
def execShinv (d a b : Nat) (s : State) : Host.Outcome State Fault Refusal :=
  crewOp (fun s c h =>
    let off := c.sr a
    match spFault h off 8 8 with
    | some f => s.takeTrap c.issued h (c.trapAt f off)
    | none =>
      let die := dieOf (h.coreOf c.idx)
      s.releasing c h 4
        (if 16 ≤ (s.mmu.shinvs.filter (fun v => v.root.isSome && v.die == die)).length then
          s.putCrew { c with w := { c.w with kind := .none } }
        else
          let id := s.fresh.id
          let tensor := (c.sr d).toNat % 4096
          let kids := s.fab.admitted.take 8
          let v : Shinv :=
            { id := id, die := die, tensor := tensor, ctx := h.ctx, root := some (c.uid, off.toNat, c.sr b)
              parent := none, wait := kids.map (fun k => (k, s.clk.ns)) }
          let s := (s.bumpId).dropMarl tensor
          let s := { s with mmu := { s.mmu with shinvs := s.mmu.shinvs ++ [v] } }
          (kids.foldl (fun s k => s.send (.shinv k id tensor)) s).finish
            { c with h := ((s.crew? c.uid c.idx).getD c).h } h)) s

/-! ## Stores performed -/

/-- The bytes from `k` on have been written (R106): the watches of other devices on their words are
answered (R360), and the WAITA conditions of evicted crews on them are examined (R224), but for words of host memory,
which are read by requests of their own (R209). -/
def State.wrote (s : State) (k n : Nat) : State :=
  let hit (key : Nat) : Bool := decide (key < k + n) && decide (k < key + 8)
  let s := (s.fab.watches.filter (fun w => hit w.key)).foldl
    (fun s w => s.send (.answer w.src w.rid (s.readKey w.key 8) false)) s
  { s with crews := s.crews.map (fun c =>
      match c.w.kind, s.cohort? c.uid with
      | .waita k va v, some h =>
        (match h.ev, s.route va, s.xlateNow h.ctx va .load with
         | .evicted _, .own _, .home key =>
           let key := key + va.toNat % 2 ^ 16
           if hit key && key / 2 ^ 56 != 2 then { c with w := { c.w with wake := wHolds k (s.readKey key 8) v } } else c
         | _, _, _ => c)
      | _, _ => c) }

/-- A store is performed at its home (R106). -/
def State.perform (s : State) (k : Nat) (bs : List Byte) : State := (s.writeKey k bs).wrote k bs.length

end Sys2Proof.Machine
end

