-- ==== Sys2Proof/Machine/GraphInstrs.lean ====
section
/-! DEFINITION. EMIT and RECLD (R51 to R55, R304, R305, R314), barriers (R296), WAITPRED and HINTSUCC (R67,
R308, R362), WDQ (R195, R196, R364), dependence counters (R69, R70, R302). -/

namespace Sys2Proof.Machine

/-! ## Emitting -/

/-- The target register of an emit (R52): node, device, remote bit. -/
def emitTarget (v : Word) : Nat × Nat × Bool :=
  (v.toNat % 4096, bitsOf v.toNat 25 16, bitOf v.toNat 31)

/-- The depth of a cohort: the largest of its records (R50). -/
def Cohort.recDepth (h : Cohort) : Nat := h.recs.foldl (fun m q => max m q.r.depth) 0

/-- The checks of R53 for one record, made before anything is sent. -/
def emitCheck (a : Inst) (src node elem depth : Nat) (remote : Bool) : Option Nat :=
  if !(a.node src).declared node remote then some 8
  else if !remote && decide ((a.node node).alast < elem) then some 8
  else if !remote && decide ((a.node node).maxdepth < depth) then some 7
  else none

/-- R71: a target refuses the record. A node that the instance does not have takes none: the model's choice (log entry
85). -/
def refused (a : Inst) (r : Record) : Bool :=
  decide (a.nodes.length ≤ r.node) || !(a.node r.node).ingress || decide ((a.node r.node).alast < r.aidx)
    || decide ((a.node r.node).maxdepth < r.depth)

/-- A refused record halts the source instance (R71). -/
def State.refuseHalt (s : State) (slot dev node : Nat) : State :=
  s.haltWith slot (s.bareFault slot node 8 0 0 0 dev)

/-- The records held for an element of another device. -/
def State.heldFor (s : State) (dev tag node elem : Nat) : List OutRec :=
  s.fab.outbound.filter (fun o => o.held && o.dev == dev && o.tag == tag && o.r.node == node && o.r.aidx == elem)

/-- Ask for a reservation for the records held for an element (R72). -/
def State.askFor (s : State) (dev tag node elem : Nat) : State :=
  let n := (s.heldFor dev tag node elem).length
  if n = 0 then s else s.send (.reserve dev tag node elem n)

/-- Send a record of the outbound area by the port of today's routes (R198, R204); without a route it stays there. -/
def State.sendOut (s : State) (o : OutRec) : State :=
  let port := s.recordPort o.die o.dev
  let s := { s with fab := { s.fab with
    outbound := s.fab.outbound.map (fun x => if x.id == o.id then { x with port := port } else x) } }
  if port.isSome then s.send (.record o.dev o.die o.sn o.tag o.granted o.r) else s

/-- Put a remote record in the outbound area of the crew's die and send it (R72, R73): behind records held
for its device and node it is held too, and the first that is held for its element asks for a reservation. -/
def State.sendRecord (s : State) (die dev tag slot serial : Nat) (r : Record) : State :=
  let id := s.fresh.id
  let sn := SMap.get 0 s.fab.streams die
  let held := s.fab.outbound.any (fun o => o.dev == dev && o.tag == tag && o.r.node == r.node && o.held)
  let first := (s.heldFor dev tag r.node r.aidx).isEmpty
  let o : OutRec := { id := id, sn := sn, die := die, dev := dev, tag := tag, inst := slot, serial := serial
                      r := r, held := held }
  let s := s.bumpId
  let s := { s with fab := { s.fab with
    outbound := s.fab.outbound ++ [o]
    streams := SMap.set 0 s.fab.streams die (sn + 1) } }
  if !held then s.sendOut o
  else if first then s.askFor dev tag r.node r.aidx else s

/-- Send the next of the records that an EMIT has still to send, in lane order (R53, R54), or wait with it (R57, R73): the
crew goes on with the rest at its next turn, so that placements and other crews may come between two records; `last` says
what follows the last one. The header names the core on which the crew stands as it sends. A next lane for the element on
which the EMIT has blocked keeps that first place in the order: the model's choice (log entry 87). A record that goes is an
effect that a replay cannot undo (R245). -/
def State.emitGo (last : State → Crew → Cohort → State) (s : State) (c : Crew) (h : Cohort) :
    List (Nat × Nat × Record) → State
  | [] => last s c h
  | (lane, dev, r) :: rest =>
    let r := { r with srccore := h.coreOf c.idx }
    let local_ (d : Nat) : Bool := d == 1024 || d == s.devid
    let held : Bool := c.w.kind == .emit r.node r.aidx
    let went (s1 : State) : State :=
      let more : Bool := held && rest.head?.any (fun x => local_ x.2.1 && x.2.2.node == r.node && x.2.2.aidx == r.aidx)
      let c1 := { c with w := { c.w with
        done := c.w.done ||| (1#32 <<< lane), emits := rest, kind := if more then c.w.kind else .none } }
      let s2 := s1.modCohort h.uid Cohort.affect
      if rest.isEmpty then last s2 c1 h.affect else s2.putCrew c1
    let here := { c with w := { c.w with
      kind := if held || c.w.kind == .emitRemote then c.w.kind else .none
      emits := (lane, dev, r) :: rest } }
    if local_ dev then
      match s.inst? h.inst with
      | none => s
      | some a =>
        if dev ≠ 1024 && refused a r then s.refuseHalt h.inst dev r.node
        else if s.waitsAhead a r.node r.aidx (if held then c.w.seq else s.fresh.seq) then
          s.waitOn here (.emit r.node r.aidx)
        else match s.enqueue? h.inst r true with
          | some s1 => went s1
          | none => s.waitOn here (.emit r.node r.aidx)
    else
      let die := dieOf (h.coreOf c.idx)
      if 1024 ≤ (s.fab.outbound.filter (fun o => o.die == die)).length then s.waitOn here .emitRemote
      else
        let tag := match s.inst? h.inst with | some a => a.l.tag | none => 0
        went (s.sendRecord die dev tag h.inst h.serial r)

/-- The mould of EMIT and EMIT.S: the records by lane with their elements; checks, release, sending. -/
def emitOp (d n : Nat) (ok : Crew → Bool) (recs : Crew → List (Nat × Nat × List Word)) (s : State) :
    Host.Outcome State Fault Refusal :=
  crewOp (fun s c h =>
    let last (s : State) (c : Crew) (h : Cohort) : State := s.finish c h
    if c.w.begun then State.emitGo last s c h c.w.emits
    else if !ok c then s.illegal c h
    else match s.inst? h.inst with
      | none => s
      | some a =>
        let (node, dev, remote) := emitTarget (c.sr d)
        let depth := h.recDepth + (if !remote && a.backEmit h.node node then 1 else 0)
        let rs := recs c
        match rs.findSome? (fun r => emitCheck a h.node node r.2.1 depth remote) with
        | some cause => s.takeTrap c.issued h (c.trapAt cause)
        | none =>
          s.releasing c h (if remote then 4 else 3)
            (let out := rs.map (fun r => (r.1, (if remote then dev else 1024),
                ({ node := node, aidx := r.2.1, depth := depth, npay := n, srcdev := s.devid
                   srccore := h.coreOf c.idx, remote := false, seq := 0, pay := r.2.2 } : Record)))
             State.emitGo last s { c with w := { c.w with kind := .none, begun := true, emits := out } } h out)) s

/-- EMIT (R53, R304): one record per active lane. -/
def execEmit (d a : Nat) (b : VOp) (n : Nat) (q : Pred) (s : State) : Host.Outcome State Fault Refusal :=
  emitOp d n (fun c => (n == 0 || c.vOk a n) && c.bOk b) (fun c =>
    (activeLanes (c.em q)).map (fun l =>
      (l, (c.bl b l).toNat % 2 ^ 16, (List.range n).map (fun j => c.vl (a + j) l)))) s

/-- EMIT.S (R53, R304): one record, whatever em holds. -/
def execEmitS (d a b n : Nat) (s : State) : Host.Outcome State Fault Refusal :=
  emitOp d n (fun _ => n == 0 || decide (a + n ≤ 192)) (fun c =>
    [(0, (c.sr b).toNat % 2 ^ 16, (List.range n).map (fun j => c.sr (a + j)))]) s

/-! ## Reading records (R55, R314) -/

/-- The record a lane reads: its own in a GATHER cohort, else the cohort's (R50). -/
def laneRecord (n : Node) (h : Cohort) (idx lane : Nat) : Record :=
  let k := if n.kind = 0 then 32 * idx + lane else 0
  (h.recs.getD k { id := 0, r := ⟨0, 0, 0, 0, 0, 0, false, 0, []⟩ }).r

/-- RECLD, vector form (R55). -/
def execRecldV (d w n : Nat) (q : Pred) (s : State) : Host.Outcome State Fault Refusal :=
  crewOp (fun s c h =>
    if !c.vOk d n || decide (8 < w + n) then s.illegal c h
    else
      let nd := s.nodeOf h
      let act := activeLanes (c.em q)
      let c1 := (List.range n).foldl (fun c1 j =>
        c1.setVs (d + j) (act.map (fun l => (l, recWord (laneRecord nd h c.idx l) (w + j))))) c
      s.finish c1 h) s

/-- RECLD, scalar form (R55): ILLEGAL in a GATHER cohort (R51). -/
def execRecldS (d w n : Nat) (s : State) : Host.Outcome State Fault Refusal :=
  crewOp (fun s c h =>
    let nd := s.nodeOf h
    if nd.kind = 0 ∨ 8 < w + n ∨ 192 < d + n then s.illegal c h
    else
      let c1 := (List.range n).foldl (fun c1 j => c1.setS (d + j) (recWord (laneRecord nd h 0 0) (w + j))) c
      s.finish c1 h) s

/-! ## Barriers (R296) -/

/-- The arrival set of a barrier. -/
def Cohort.arr (h : Cohort) (b : Nat) : List Nat := ((h.bars.find? (fun x => x.n == b)).map (·.arr)).getD []

/-- An arrival is ILLEGAL (R296): the crew's stage is not counted, the mask is not the generation's, or
the crew has arrived already. -/
def badArrival (c : Crew) (h : Cohort) (b m : Nat) : Bool :=
  !bitOf m c.stage || (match h.bars.find? (fun x => x.n == b) with
    | some x => x.mask != m || x.arr.contains c.idx
    | none => false)

/-- Arrive (R296). -/
def State.arrive (s : State) (c : Crew) (h : Cohort) (b m : Nat) : State :=
  let bars := match h.bars.find? (fun x => x.n == b) with
    | some _ => h.bars.map (fun x => if x.n == b then { x with arr := x.arr ++ [c.idx] } else x)
    | none => h.bars ++ [{ n := b, arr := [c.idx], mask := m }]
  (s.modCohort h.uid (fun h => { h with bars := bars })).testBars h.uid

/-- The stage mask of a register; 0 reads as 0xFF (R296). -/
def stageMask (v : Word) : Nat := if v.toNat % 256 = 0 then 255 else v.toNat % 256

/-- Wait while the crew stands in the arrival set. -/
def State.barWait (s : State) (c : Crew) (h : Cohort) (b : Nat) : State :=
  match s.cohort? h.uid with
  | some h1 =>
    if (h1.arr b).contains c.idx then
      (s.waitOn { c with w := { c.w with begun := true } } (.barrier b)).testDeadlock h.uid
    else s.finish c h1
  | none => s

/-- BAR: arrival, then wait (R296). -/
def execBar (a b : Nat) (s : State) : Host.Outcome State Fault Refusal :=
  crewOp (fun s c h =>
    if c.w.begun then s.barWait c h b
    else if badArrival c h b (stageMask (c.sr a)) then s.illegal c h
    else (s.arrive c h b (stageMask (c.sr a))).barWait c h b) s

/-- BAR.arv: arrival alone (R296). -/
def execBarArv (a b : Nat) (s : State) : Host.Outcome State Fault Refusal :=
  crewOp (fun s c h =>
    if badArrival c h b (stageMask (c.sr a)) then s.illegal c h
    else
      let s1 := s.arrive c h b (stageMask (c.sr a))
      s1.finish c ((s1.cohort? h.uid).getD h)) s

/-- BAR.wt: the wait alone (R296); the stage mask is not used. -/
def execBarWt (_a b : Nat) (s : State) : Host.Outcome State Fault Refusal :=
  crewOp (fun s c h => s.barWait c h b) s

/-! ## Completion edges -/

/-- WAITPRED (R67, R362): in a cohort that was started early, until the predecessors are complete, but for a crew whose
WAITPRED has returned before; then the acquire of device scope. -/
def execWaitpred (s : State) : Host.Outcome State Fault Refusal :=
  crewOp (fun s c h =>
    let ready : Bool := match s.inst? h.inst with
      | some a => !h.early || c.g.waited || s.predsDone a h.node
      | none => true
    if !ready then s.waitOn c .waitpred
    else if s.mem.loads.any (fun l => l.uid == c.uid && l.idx == c.idx) then
      s.putCrew { c with w := { c.w with kind := .none } }
    else
      let c1 := s.acquired c h 3
      s.finish { c1 with g := { c1.g with waited := true } } h) s

/-- An EARLY node of the instance names this node as its predecessor (R308). -/
def State.hintCounts (s : State) (h : Cohort) : Bool :=
  (s.inst? h.inst).any (fun a => a.nodes.any (fun n => n.early && n.preds.contains h.node))

/-- HINTSUCC (R67, R308): where no EARLY node names the node, the release and nothing more. -/
def execHintsucc (s : State) : Host.Outcome State Fault Refusal :=
  crewOp (fun s c h => s.releasing c h 3
    (s.finish { c with g := { c.g with hinted := c.g.hinted || s.hintCounts h } } h)) s

/-! ## The work distributor -/

/-- WDQ (R175, R196, R364): ILLEGAL outside a cohort of a KIND 4 record, then the offset checks; the
request is handed to the distributor. -/
def execWdq (a : Nat) (s : State) : Host.Outcome State Fault Refusal :=
  crewOp (fun s c h =>
    let off := c.sr a
    match h.space with
    | none => s.illegal c h
    | some sp =>
      match spFault h off 8 8 with
      | some f => s.takeTrap c.issued h (c.trapAt f off)
      | none =>
        let w : Wdq := { id := s.fresh.id, uid := c.uid, idx := c.idx, space := sp, off := off.toNat }
        let s := s.bumpId
        ({ s with eng := { s.eng with wdqs := s.eng.wdqs ++ [w] } }).finish c h) s

/-! ## Dependence counters -/

/-- DEPSET.ARM (R69, R302). -/
def execDepsetArm (d a b : Nat) (s : State) : Host.Outcome State Fault Refusal :=
  crewOp (fun s c h =>
    let v := (c.sr d).toNat
    let ctr := v % 256
    let node := bitsOf v 19 8
    let elem := bitsOf v 35 20
    let k := bitsOf v 38 36
    match s.inst? h.inst with
    | none => s
    | some i =>
      if 6 < k ∨ (0 < k ∧ 191 < b + k - 1) then s.illegal c h
      else
        let depth := h.recDepth + (if i.backEmit h.node node then 1 else 0)
        if !(i.node h.node).declared node false || decide ((i.node node).alast < elem) then
          s.takeTrap c.issued h (c.trapAt 8)
        else if (i.node node).maxdepth < depth then s.takeTrap c.issued h (c.trapAt 7)
        else if i.ctrs.any (fun x => x.n == ctr) then s.illegal c h
        else
          let r : Record :=
            { node := node, aidx := elem, depth := depth, npay := k, srcdev := s.devid, srccore := 0xFFFE
              remote := false, seq := 0, pay := (List.range k).map (fun j => c.sr (b + j)) }
          let n : Nat := (c.sr a).toNat % 2 ^ 32
          let f := Cohort.affect
          let s1 := (s.modCohort h.uid f).modInst h.inst (fun x =>
            { x with ctrs := x.ctrs ++ [{ n := ctr, remaining := (n : Int), r := r }] })
          let s2 := if n = 0 then s1.fire h.inst ctr else s1
          s2.finish c (f h)) s

/-- DEPSET.DEC (R69, R302). -/
def execDepsetDec (d a : Nat) (s : State) : Host.Outcome State Fault Refusal :=
  crewOp (fun s c h =>
    let f := Cohort.affect
    ((s.modCohort h.uid f).decrement h.inst ((c.sr d).toNat % 256) ((c.sr a).toNat % 2 ^ 32)).finish c (f h)) s

end Sys2Proof.Machine
end

