-- ==== Sys2Proof/Machine/VectorFloat.lean ====
section
/-! DEFINITION. Vector floating point, conversion, expression, Hadamard and quantising instructions (R274,
R338, R339, R342 to R346, R351, R355, R260, R261, R150 to R164). -/

namespace Sys2Proof.Machine

/-! ## Arithmetic -/

/-- The mould of the two-source float instructions: operands flushed under FTZ (R161), one rounding by the
mode of R157. -/
def fpOp (d a : Nat) (b : VOp) (t : Ty) (q : Pred) (rnd : Nat)
    (g : Nat → Bool → FV → FV → FV → Nat × Fl) (s : State) : Host.Outcome State Fault Refusal :=
  vecOp d (fun c => c.vOk a 1 && c.bOk b) q (fun c l =>
    perElem t (fun j =>
      let rd (x : Nat) : FV := operandF c.ftz t x
      g (c.rmode rnd) c.ftz (rd (elem t.width (c.vl a l) j)) (rd (bElem c b t.width l j))
        (rd (elem t.width (c.vl d l) j)))) s

/-- VFADD (R343). -/
def execVfadd (d a : Nat) (b : VOp) (t : Ty) (q : Pred) (rnd : Nat) (s : State) :
    Host.Outcome State Fault Refusal := fpOp d a b t q rnd (fun m z x y _ => addF t m z x y) s

/-- VFSUB (R344). -/
def execVfsub (d a : Nat) (b : VOp) (t : Ty) (q : Pred) (rnd : Nat) (s : State) :
    Host.Outcome State Fault Refusal := fpOp d a b t q rnd (fun m z x y _ => addF t m z x y.negate) s

/-- VFMUL (R344). -/
def execVfmul (d a : Nat) (b : VOp) (t : Ty) (q : Pred) (rnd : Nat) (s : State) :
    Host.Outcome State Fault Refusal := fpOp d a b t q rnd (fun m z x y _ => mulF t m z x y) s

/-- VFMA (R344). -/
def execVfma (d a : Nat) (b : VOp) (t : Ty) (q : Pred) (rnd : Nat) (s : State) :
    Host.Outcome State Fault Refusal := fpOp d a b t q rnd (fun m z x y w => fmaF t m z x y w) s

/-- VFMS (R344). -/
def execVfms (d a : Nat) (b : VOp) (t : Ty) (q : Pred) (rnd : Nat) (s : State) :
    Host.Outcome State Fault Refusal := fpOp d a b t q rnd (fun m z x y w => fmaF t m z x y w.negate) s

/-- VFMIN (R345). -/
def execVfmin (d a : Nat) (b : VOp) (t : Ty) (q : Pred) (s : State) :
    Host.Outcome State Fault Refusal := fpOp d a b t q 0 (fun _ _ x y _ => minmaxF t false x y) s

/-- VFMAX (R345). -/
def execVfmax (d a : Nat) (b : VOp) (t : Ty) (q : Pred) (s : State) :
    Host.Outcome State Fault Refusal := fpOp d a b t q 0 (fun _ _ x y _ => minmaxF t true x y) s

/-- VSF (R355): both FP32 elements, rounded by RNE. -/
def execVsf (d a : Nat) (f : SfFn) (q : Pred) (s : State) : Host.Outcome State Fault Refusal :=
  vecOp d (fun c => c.vOk a 1) q (fun c l =>
    perElem .f32 (fun j => sfF f c.ftz (elem 32 (c.vl a l) j))) s

/-! ## Blocks (R152 to R154, R162 to R164) -/

/-- A magnitude times a power of two. -/
def FV.scale (k : Int) : FV → FV
  | .fin n m e => .fin n m (e + k)
  | v => v

/-- DecodeE2M1S (R152). -/
def decodeE2M1S (code spare : Nat) : FV :=
  if code = 8 then decodeF .e4m3 spare
  else
    let e := code / 2 % 4
    let m := code % 2
    if e = 0 then .fin (code / 8 == 1) m (-1) else .fin (code / 8 == 1) (2 + m) ((e : Int) - 2)

/-- An element of a block with its scale code (R153, R156): a code of 0xFF makes it NaN. -/
def blockElem (v : FV) (scale : Nat) : FV :=
  if scale = 255 then .nan false else v.scale ((scale : Int) - 127)

/-- Element `j` of lane `l` of a .e2m1s operand, with the side bytes of its companion's even lane
(R154). -/
def e2m1sElem (c : Crew) (a l j : Nat) : FV :=
  let side := (c.vl (a + 1) (l / 2 * 2)).toNat
  blockElem (decodeE2M1S (elem 4 (c.vl a l) j) (side / 256 % 256)) (side % 256)

/-- Lanes of the groups of `k` lanes that hold an active lane, with the lane's group (R154, R351). -/
def groupLanes (k : Nat) (em : Mask) : List Nat :=
  lanes.filter (fun l => (List.range k).any (fun i => mbit em (l / k * k + i)))

/-- The exact sum of values with signs, rounded once (R164, R346): NaN with any NaN or both infinities, an
infinity with one; IV for a signalling NaN or both infinities; a zero sum is +0, −0 under RDN. -/
def sumF (t : Ty) (mode : Nat) (ftz : Bool) (l : List FV) : Nat × Fl :=
  let pinf := l.any (fun v => match v with | .inf n => !n | _ => false)
  let ninf := l.any (fun v => match v with | .inf n => n | _ => false)
  let iv := l.any FV.sig || (pinf && ninf)
  if l.any FV.isNan || (pinf && ninf) then nanF t iv
  else if pinf then (Fmt.infBits t, {})
  else if ninf then (Fmt.signBit t + Fmt.infBits t, {})
  else
    let q := l.foldl (fun q v => match v with | .fin _ _ e => min q e | _ => q) 0
    let x : Int := l.foldl (fun x v => match v with
      | .fin n m e => if n then x - (m * 2 ^ (e - q).toNat : Nat) else x + (m * 2 ^ (e - q).toNat : Nat)
      | _ => x) 0
    if x = 0 then (if mode = 3 then Fmt.signBit t else 0, {})
    else roundF t mode ftz false 0 (decide (x < 0)) x.natAbs q false

/-- The terms of element `i` of a Hadamard transform of a block of 32 (R164, R346): order 32, or order 16 on each half
by itself, so that an element's place there is its index in the half (log entry 97). -/
def hadTerms (h32 : Bool) (x : List FV) (i : Nat) : List FV :=
  (List.range 32).filterMap (fun m =>
    if h32 || m / 16 = i / 16 then
      some (let v := x.getD m (.fin false 0 0)
            if popc (i &&& m &&& (if h32 then 31 else 15)) 6 % 2 = 1 then v.negate else v)
    else none)

/-- A lane as a block of lanes reads it: a vacant lane gives zeros (R346, R351). -/
def Crew.blockLane (c : Crew) (f lane : Nat) : Word := if mbit c.m.om lane then c.vl f lane else 0

/-- VHAD (R346). -/
def execVhad (d a : Nat) (h32 : Bool) (t : Ty) (q : Pred) (rnd : Nat) (s : State) :
    Host.Outcome State Fault Refusal :=
  vecOp d (fun c => c.vOk a 1) q (fun c l =>
    let n := t.count
    let k := (l * n) / 32
    let x := (List.range 32).map (fun m =>
      operandF c.ftz t (elem t.width (c.blockLane a ((32 * k + m) / n)) ((32 * k + m) % n)))
    perElem t (fun j => sumF t (c.rmode rnd) c.ftz (hadTerms h32 x ((l * n + j) % 32)))) s

/-! ## Conversion (R157 to R161, R338, R339) -/

/-- Element `j` of lane `l` of a source of type `t`, converted to the type `dt`. -/
def cvtElem (c : Crew) (a : Nat) (dt st : Ty) (mode : Nat) (sat : Bool) (l j : Nat) : Nat × Fl :=
  let r := (draw c.g.seed (c.g.ctr + BitVec.ofNat 64 j) l).toNat / 2 ^ 40
  let x := elem st.width (c.vl a l) j
  if st.isInt then
    let v := readInt st x
    if dt.isInt then
      if sat then (wrapTo dt.width (clampInt dt v), { sat := decide (clampInt dt v ≠ v) })
      else (wrapTo dt.width v, {})
    else ofIntF dt mode c.ftz sat r v
  else
    let v := if st = .e2m1s then e2m1sElem c a l j else operandF c.ftz st x
    if dt.isInt then toIntF dt mode r v else convertF dt mode c.ftz sat r v

/-- VCVT (R338, R339): elements beyond the source's count are zero; a .e2m1s target writes its companion;
SR advances the counter. -/
def execVcvt (d a : Nat) (dst src : Ty) (q : Pred) (rnd : Nat) (sat : Bool) (s : State) :
    Host.Outcome State Fault Refusal :=
  crewOp (fun s c h =>
    let two (t : Ty) : Nat := if t = .e2m1s then 2 else 1
    if !(c.vOk d (two dst) && c.vOk a (two src)) then s.illegal c h
    else
      let mode := c.rmode rnd
      let r := (activeLanes (c.em q)).map (fun l => (l, perElem dst (fun j =>
        if j < src.count then cvtElem c a dst src mode sat l j else (0, {}))))
      let fl := r.map (fun x => (x.1, x.2.2))
      let c1 := (c.setVs d (r.map (fun x => (x.1, x.2.1)))).raise fl
      let c2 := if dst = .e2m1s then
          c1.setVs (d + 1) ((groupLanes 2 (c.em q)).map (fun l => (l, 0x7F)))
        else c1
      let c3 := if mode = 6 then { c2 with g := { c2.g with ctr := c.g.ctr + BitVec.ofNat 64 dst.count } }
        else c2
      s.finish c3 h (arithTrap c fl)) s

/-! ## Expressions (R260, R261, R342) -/

/-- Issue's check of the token list: the stack depth at its end, none for an illegal list (R261). -/
def exprDepth : List Tok → Nat → Option Nat
  | [], n => some n
  | .fin :: _, n => some n
  | t :: r, n =>
    match t with
    | .i0 | .i1 | .i2 | .i3 => if n < 4 then exprDepth r (n + 1) else none
    | .dup => if n = 0 ∨ 4 ≤ n then none else exprDepth r (n + 1)
    | .add | .sub | .mul | .min | .max => if n < 2 then none else exprDepth r (n - 1)
    | .fma => if n < 3 then none else exprDepth r (n - 2)
    | .neg | .abs | .exp2 | .rcp => if n < 1 then none else exprDepth r n
    | .fin => some n

/-- The live tokens: those before the first END. -/
def liveToks (l : List Tok) : List Tok := l.takeWhile (fun t => t != .fin)

/-- Evaluate on FP32 patterns: every operator rounds by RNE and raises its flags (R261, R342). -/
def exprEval (ftz : Bool) (inp : Nat → Nat) : List Tok → List Nat → Fl → Nat × Fl
  | [], st, fl => (st.headD 0, fl)
  | t :: r, st, fl =>
    let v (i : Nat) : FV := operandF ftz .f32 (st.getD i 0)
    let go (k : Nat) (x : Nat × Fl) : Nat × Fl := exprEval ftz inp r (x.1 :: st.drop k) (fl.or x.2)
    match t with
    | .i0 => go 0 (inp 0, {})
    | .i1 => go 0 (inp 1, {})
    | .i2 => go 0 (inp 2, {})
    | .i3 => go 0 (inp 3, {})
    | .dup => go 0 (st.headD 0, {})
    | .add => go 2 (addF .f32 1 ftz (v 1) (v 0))
    | .sub => go 2 (addF .f32 1 ftz (v 1) (v 0).negate)
    | .mul => go 2 (mulF .f32 1 ftz (v 1) (v 0))
    | .fma => go 3 (fmaF .f32 1 ftz (v 2) (v 1) (v 0))
    | .min => go 2 (minmaxF .f32 false (v 1) (v 0))
    | .max => go 2 (minmaxF .f32 true (v 1) (v 0))
    | .neg => go 1 ((st.headD 0) ^^^ 0x80000000, {})
    | .abs => go 1 ((st.headD 0) % 0x80000000, {})
    | .exp2 => go 1 (sfF .exp2 ftz (st.headD 0))
    | .rcp => go 1 (sfF .rcp ftz (st.headD 0))
    | .fin => (st.headD 0, fl)

/-- An input element as FP32, flushed under FTZ (R342): BF16 converts exactly. -/
def exprIn (ftz : Bool) (t : Ty) (x : Nat) : Nat :=
  let y := if t = .bf16 then x * 2 ^ 16 else x
  match operandF ftz .f32 y with
  | .fin n 0 _ => if n then 0x80000000 else 0
  | _ => y

/-- VEXPR (R260, R261, R342): the lanes of xm; the last value is rounded once to T. -/
def execVexpr (d i0 i1 i2 i3 : Nat) (t : Ty) (toks : List Tok) (sat rnef : Bool) (s : State) :
    Host.Outcome State Fault Refusal :=
  crewOp (fun s c h =>
    let reg (k : Nat) : Nat := match k with | 0 => i0 | 1 => i1 | 2 => i2 | _ => i3
    let live := liveToks toks
    let used := live.filterMap (fun t => match t with
      | .i0 => some i0 | .i1 => some i1 | .i2 => some i2 | .i3 => some i3 | _ => none)
    if exprDepth toks 0 ≠ some 1 ∨ !c.vOk d 1 ∨ !(used.all (fun v => c.vOk v 1)) then s.illegal c h
    else
      let mode := if rnef then 1 else c.rmode 0
      let r := (activeLanes c.m.xm).map (fun l => (l, perElem t (fun j =>
        let y := exprEval c.ftz (fun k => exprIn c.ftz t (elem t.width (c.vl (reg k) l) j)) live [] {}
        let z := convertF t mode c.ftz sat 0 (operandF c.ftz .f32 y.1)
        (z.1, y.2.or z.2))))
      let fl := r.map (fun x => (x.1, x.2.2))
      s.finish ((c.setVs d (r.map (fun x => (x.1, x.2.1)))).raise fl) h (arithTrap c fl)) s

/-! ## Quantising (R162, R163, R351) -/

/-- A finite value as an integer multiple of 2^−700: exact for every value that VQNT meets. -/
def fix700 : FV → Int
  | .fin n m e => let x : Int := (m * 2 ^ (e + 700).toNat : Nat); if n then -x else x
  | _ => 0

/-- The offset of the scale code (R162). -/
def qOff : Ty → Int
  | .e2m1s => 2
  | .e4m3 => 8
  | .e5m2 => 15
  | _ => 6

/-- The scale code of a block and its flags (R162). -/
def qScale (t : Ty) (x : List FV) : Nat × Fl :=
  if x.any (fun v => match v with | .fin _ _ _ => false | _ => true) then (255, { iv := true })
  else
    let tops := x.filterMap (fun v => match v with
      | .fin _ m e => if m = 0 then none else some ((bitLen m : Int) - 1 + e)
      | _ => none)
    match tops with
    | [] => (127, {})
    | a :: r =>
      let k := r.foldl max a - qOff t + 127
      ((max 0 (min 254 k)).toNat, { ov := decide (254 < k) })

/-- Convert one scaled element: beyond the largest finite value it takes that value and sets NX alone;
INT8 clamps to ±127 and sets SAT (R162). No UF is set (R351). -/
def qElem (t : Ty) (mode r : Nat) (y : FV) : Nat × Fl :=
  if t = .s8 then
    let x := toIntF .s64 mode r y
    let v := toSigned 64 x.1
    if v < -127 ∨ 127 < v then (wrapTo 8 (if v < 0 then -127 else 127), { sat := true })
    else (wrapTo 8 v, { nx := x.2.nx })
  else
    let x := convertF t mode false true r y
    (x.1, { nx := x.2.nx })

/-- The spare of a block and whether any element may take it (R163). -/
def qSpare (y : List FV) : Nat × Bool :=
  let err := y.map (fun v => (fix700 v - fix700 (decodeE2M1S (qElem .e2m1s 1 0 v).1 0)).natAbs)
  let top := err.foldl max 0
  if top = 0 then (0, false)
  else ((convertF .e4m3 1 false true 0 (y.getD (err.findIdx (· == top)) (.fin false 0 0))).1, true)

/-- The code of one element of a block (R162, R163). -/
def qCode (t : Ty) (mode r : Nat) (spare : Nat × Bool) (y : FV) : Nat × Fl :=
  if t = .e2m1s && spare.2 then
    let err := (fix700 y - fix700 (decodeE2M1S (qElem .e2m1s 1 0 y).1 0)).natAbs
    let d := (fix700 y - fix700 (decodeF .e4m3 spare.1)).natAbs
    if d < err then (8, { nx := decide (d ≠ 0) }) else qElem t mode r y
  else qElem t mode r y

/-- The input elements of block `k`: `n` destination elements per lane, from registers of type `st`; vacant lanes give
zeros (R351). -/
def qBlock (c : Crew) (a : Nat) (st : Ty) (n k : Nat) : List FV :=
  (List.range 32).map (fun i =>
    let l := (32 * k + i) / n
    let j := (32 * k + i) % n
    operandF c.ftz st (elem st.width (c.blockLane (a + j / st.count) l) (j % st.count)))

/-- The block after its transform: each sum rounded once to FP32 (R164). That rounding sets no flag: the model's choice
(log entry 104). -/
def qHad (had : Nat) (ftz : Bool) (x : List FV) : List FV :=
  if had = 0 then x
  else (List.range 32).map (fun i => decodeF .f32 (sumF .f32 1 ftz (hadTerms (had == 2) x i)).1)

/-- VQNT (R351). The spare of a block that holds a NaN or an infinity is written as 0: the model's choice (log entry
105). -/
def execVqnt (d a : Nat) (dst src : Ty) (had : Nat) (q : Pred) (rnd : Nat) (s : State) :
    Host.Outcome State Fault Refusal :=
  crewOp (fun s c h =>
    let n := if dst = .e2m1s then 16 else 8
    if !(c.vOk d 2 && c.vOk a (n / src.count)) then s.illegal c h
    else
      let mode := c.rmode rnd
      let em := c.em q
      let blk (l : Nat) : List FV := qHad had c.ftz (qBlock c a src n (l * n / 32))
      let r := (activeLanes em).map (fun l =>
        let x := blk l
        let sc := qScale dst x
        if sc.1 = 255 then (l, ((0 : Word), sc.2))
        else
          let y := x.map (FV.scale (127 - (sc.1 : Int)))
          let sp := if dst = .e2m1s then qSpare y else (0, false)
          let e := (List.range n).map (fun j =>
            qCode dst mode ((draw c.g.seed (c.g.ctr + BitVec.ofNat 64 j) l).toNat / 2 ^ 40) sp
              (y.getD ((l * n + j) % 32) (.fin false 0 0)))
          (l, (packLane dst.width (e.map (·.1)), (Fl.all (e.map (·.2))).or sc.2)))
      let side := (groupLanes (32 / n) em).map (fun l =>
        let x := blk l
        let sc := (qScale dst x).1
        let sp := if dst = .e2m1s && sc != 255 then (qSpare (x.map (FV.scale (127 - (sc : Int))))).1 else 0
        (l, BitVec.ofNat 64 (sc + 256 * sp)))
      let fl := r.map (fun x => (x.1, x.2.2))
      let c1 := ((c.setVs d (r.map (fun x => (x.1, x.2.1)))).setVs (d + 1) side).raise fl
      let c2 := if mode = 6 then { c1 with g := { c1.g with ctr := c.g.ctr + BitVec.ofNat 64 n } } else c1
      s.finish c2 h (arithTrap c fl)) s

end Sys2Proof.Machine
end

