-- ==== Sys2Proof/Machine/EngineInstrs.lean ====
section
/-! DEFINITION. MMQ and CPQ: the records and cards that the engines read (R175 to R181, R187, R188, R300). -/

namespace Sys2Proof.Machine

/-! ## Footprints (R118, R119, R179) -/

/-- Bytes of a core's weight buffer (R9). -/
def wbBytes : Nat := 524288

/-- The regions of a footprint block from its sixteen words; none when it is rejected (R179). `kib` is the
cohort's scratchpad, `tiles` its grant, `job` allows global regions. -/
def footprint (kib tiles : Nat) (job : Bool) (w : List Word) : Option (List Region) :=
  (List.range 8).foldl (fun acc j =>
    match acc with
    | none => none
    | some l =>
      let a := (w.getD (2 * j) 0).toNat
      let b := (w.getD (2 * j + 1) 0).toNat
      let kind := a % 8
      let len := bitsOf a 63 32
      if kind = 0 then (if a = 0 ∧ b = 0 then some l else none)
      else if bitsOf a 31 3 ≠ 0 ∨ 4 < kind ∨ (kind = 4 ∧ job = false) then none
      else if kind = 3 then
        (if len = 0 ∧ b < 2 ^ tiles then some (l ++ [⟨decide (4 ≤ j), 3, b, 0⟩]) else none)
      else
        let top := if kind = 1 then 1024 * kib else if kind = 2 then wbBytes else 2 ^ 64
        if len = 0 ∨ top < b + len then none else some (l ++ [⟨decide (4 ≤ j), kind, b, len⟩])) (some [])

/-- The first byte from `lo` on that no region of these covers, looking `k` times. -/
def reach (l : List Region) (lo : Nat) : Nat → Nat
  | 0 => lo
  | k + 1 => match l.find? (fun r => decide (r.start ≤ lo) && decide (lo < r.start + r.len)) with
    | some r => reach l (r.start + r.len) k
    | none => lo

/-- An access of `n` bytes lies in the footprint (R179). -/
def inside (fp : List Region) (write : Bool) (kind lo n : Nat) : Bool :=
  decide (lo + n ≤ reach (fp.filter (fun r => r.write == write && r.kind == kind)) lo 5)

/-- Two regions of one core overlap (R118); `same` says that both belong to one cohort. -/
def Region.overlaps (same : Bool) (x y : Region) : Bool :=
  x.kind == y.kind &&
    (if x.kind = 3 then same && (x.start &&& y.start) != 0
     else (same || x.kind != 1) && decide (x.start < y.start + y.len) && decide (y.start < x.start + x.len))

/-! ## Fields of records -/

/-- A field of word `k` of an item's record or card. -/
def Item.fld (i : Item) (k hi lo : Nat) : Nat := bitsOf (i.words.getD k 0).toNat hi lo

/-- The OP of a task, or the JOP of a job. -/
def Item.op (i : Item) : Nat := i.fld 0 3 0

/-- Word 6 and DCEN, DCTR of word 7 (R177, R187). -/
def completionOk (kib : Nat) (i : Item) : Bool :=
  i.fld 6 23 21 == 0
    && (if i.fld 6 20 20 = 1 then i.fld 6 19 0 % 8 == 0 && decide (i.fld 6 19 0 + 8 ≤ 1024 * kib)
        else i.fld 6 63 0 == 0)
    && (i.fld 7 8 8 == 1 || i.fld 7 7 0 == 0)

/-- K of a row of R178 for an operand format. -/
def kOf : Ty → Nat
  | .f16 | .bf16 => 16
  | .e4m3 | .e5m2 | .s8 | .n8 => 32
  | _ => 64

/-- The row of R178 that holds both formats: its K. -/
def rowK (op : Nat) (a b : Ty) : Option Nat :=
  let row (t : Ty) : Option Nat :=
    match op, t with
    | 0, .f16 | 0, .bf16 => some 16
    | 0, .e4m3 | 0, .e5m2 => some 32
    | 1, .e4m3 | 1, .e5m2 | 1, .s8 => some 32
    | 1, .e2m1s => some 64
    | 2, .s8 | 2, .n8 => some 32
    | 2, .s4 | 2, .n4 => some 64
    | _, _ => none
  match row a, row b with
  | some x, some y => if x = y then some x else none
  | _, _ => none

/-- Steps of a task, and whether B is compressed. -/
def Item.nstep (i : Item) : Nat := i.fld 0 27 20 + 1
def Item.sparse (i : Item) : Bool := i.fld 2 12 12 == 1

/-- Bytes of a B step (R184). -/
def stepBytes (k : Nat) (sparse : Bool) : Nat := if sparse then 512 + 4 * k else 1024

/-- Every slot of a ring that an item uses, from its first one on, lies in the footprint: the data, read or
written as it uses them, and the tags (R179). -/
def slotsOk (fp : List Region) (write : Bool) (r : Ring) (slot n : Nat) : Bool :=
  (List.range (min n r.count)).all (fun k =>
    let s := (slot + k) % r.count
    inside fp write 1 (r.base + s * r.slotKib * 1024) (1024 * r.slotKib) && inside fp true 1 (r.tag + 8 * s) 8)

/-- A RINGDEF obeys R181. -/
def ringOk (kib : Nat) (i : Item) : Bool :=
  let count := i.fld 1 13 8 + 1
  let slot := i.fld 1 21 16 + 1
  let base := i.fld 2 19 0
  let tag := i.fld 2 39 20
  i.fld 0 63 4 == 0 && i.fld 1 7 3 == 0 && i.fld 1 15 14 == 0 && i.fld 1 63 22 == 0 && i.fld 2 63 40 == 0
    && (List.range 5).all (fun k => i.fld (3 + k) 63 0 == 0)
    && base % 1024 == 0 && tag % 8 == 0
    && decide (base + count * slot * 1024 ≤ 1024 * kib) && decide (tag + 8 * count ≤ 1024 * kib)

/-- The ring that a RINGDEF defines. -/
def Item.ringDef (i : Item) : Ring :=
  { count := i.fld 1 13 8 + 1, slotKib := i.fld 1 21 16 + 1, base := i.fld 2 19 0, tag := i.fld 2 39 20 }

/-- The scale block has its form (R180). -/
def scaleOk (w : List Word) : Bool :=
  let x := (w.getD 2 0).toNat
  bitsOf x 63 8 == 0 && decide (5 ≤ bitsOf x 3 0) && decide (5 ≤ bitsOf x 7 4)

/-- A task other than RINGDEF obeys R177 to R184. Its footprint, scale block and ring are in the item. -/
def taskOk (kib tiles : Nat) (i : Item) : Bool :=
  let ct := i.fld 3 5 0
  let had := i.fld 7 11 10
  let sat := i.fld 7 9 9
  let common := completionOk kib i && i.fld 5 63 20 == 0 && i.fld 7 63 12 == 0 && i.fld 3 63 6 == 0
    && decide (ct < tiles) && i.fp.any (fun r => r.write && r.kind == 3 && bitOf r.start ct)
  if i.op = 4 then
    common && i.fld 0 63 4 == 0 && i.fld 1 63 0 == 0 && i.fld 2 63 0 == 0 && i.fld 4 63 0 == 0
      && had == 0 && sat == 0
  else
    match rowK i.op (.ofCode (i.fld 0 7 4)) (.ofCode (i.fld 0 11 8)), i.ring with
    | some k, some r =>
      let n := i.nstep
      let wb := i.fld 2 10 0 * 256
      let len := n * stepBytes k i.sparse
      common && i.fld 0 63 28 == 0 && i.fld 0 15 12 == (if i.op = 2 then 2 else 10)
        && had != 3 && (had == 0 || i.op != 2) && (sat == 0 || i.op == 2)
        && i.fld 1 7 3 == 0 && i.fld 1 63 14 == 0 && i.fld 2 11 11 == 0 && i.fld 2 63 13 == 0
        && i.fld 4 63 20 == 0 && (if i.op = 1 then i.fld 4 19 0 % 32 == 0 && scaleOk i.sc else i.fld 4 19 0 == 0)
        && n % r.slotKib == 0 && decide (n / r.slotKib ≤ r.count)
        && decide (wb + len ≤ wbBytes)
        && i.fp.any (fun r => !r.write && r.kind == 2 && decide (r.start ≤ wb) && decide (wb + len ≤ r.start + r.len))
        && slotsOk i.fp false r (i.fld 1 13 8) (n / r.slotKib)
    | _, _ => false

/-! ## Job cards (R188 to R191) -/

def Item.srcSp (i : Item) : Bool := i.fld 0 4 4 == 1
def Item.dstSp (i : Item) : Bool := i.fld 0 5 5 == 1
def Item.dstRing (i : Item) : Bool := i.fld 0 6 6 == 1
def Item.bt (i : Item) : Bool := i.fld 0 7 7 == 1
def Item.efmt (i : Item) : Ty := .ofCode (i.fld 0 15 12)
def Item.tokBytes (i : Item) : Nat := i.fld 0 47 24

/-- Bytes of a token as a WIDEN writes it: 4 or 2 per source byte (R190). -/
def Item.tokOut (i : Item) : Nat :=
  if i.op = 2 then i.tokBytes else i.tokBytes * (if i.efmt = .e2m1s then 4 else 2)

/-- Elements of one run of a WIDEN: of the job, or of a token (R190). -/
def Item.runElems (i : Item) : Nat := if i.bt then i.tokOut / 2 else i.fld 3 31 0

/-- Bytes that the job's operation gives, before the filling of a ring slot. -/
def Item.outBytes (i : Item) : Nat :=
  match i.op with
  | 0 => i.fld 3 31 0
  | 1 => i.fld 3 31 0 * i.fld 3 63 32
  | 2 => i.fld 3 63 32 * i.tokBytes
  | 3 => if i.bt then i.fld 3 63 32 * i.tokOut else 2 * i.fld 3 31 0
  | _ => i.fld 3 15 0 * stepBytes (kOf i.efmt) (i.fld 0 16 16 == 1)

/-- Slots that a ring destination fills. -/
def Item.slots (i : Item) (r : Ring) : Nat := (i.outBytes + 1024 * r.slotKib - 1) / (1024 * r.slotKib)

/-- All bytes that the job writes. -/
def Item.total (i : Item) : Nat :=
  match i.ring with
  | some r => i.slots r * 1024 * r.slotKib
  | none => i.outBytes

/-- Kind of the source region, and of the destination's (R179). -/
def Item.srcKind (i : Item) : Nat := if i.srcSp then 1 else 4
def Item.dstKind (i : Item) : Nat := if i.op = 4 then 2 else if i.dstSp then 1 else 4

/-- A WIDEN reads scale entries. -/
def Item.scaled (i : Item) : Bool := i.op == 3 && (i.efmt == .e2m1s || i.fld 0 18 18 == 1)

/-- Fields that R188 asks to be zero because the JOP does not use them. -/
def jobZeros (i : Item) : Bool :=
  let z (k hi lo : Nat) : Bool := i.fld k hi lo == 0
  let tok := z 0 47 24 && z 0 11 8
  match i.op with
  | 0 | 1 => tok && z 0 18 12 && z 0 7 6 && z 7 11 10 && z 5 39 20 && (i.op == 1 || (z 3 63 32 && z 4 63 0))
  | 2 => z 0 18 12 && z 0 7 7 && z 0 4 4 && z 7 11 10 && z 5 39 20
  | 3 => z 0 17 16 && (i.bt || (tok && z 3 63 32 && z 4 63 0)) && (i.scaled || z 5 39 20)
      && !(i.bt && i.srcSp) && !(i.efmt == .e2m1s && i.fld 0 18 18 == 1)
  | _ => tok && z 0 18 18 && z 0 7 5 && z 7 11 10 && z 5 39 20 && z 3 63 16 && z 4 63 0

/-- Ends of a job (R188): multiples of 8, offsets in [19:0], a ring number with its first slot. -/
def jobEnds (i : Item) : Bool :=
  i.fld 1 2 0 == 0 && (!i.srcSp || i.fld 1 63 20 == 0)
    && (if i.dstRing then !i.dstSp && i.ring.isSome && i.fld 2 7 3 == 0 && i.fld 2 63 14 == 0
        else i.fld 2 2 0 == 0 && (!i.dstSp || i.fld 2 63 20 == 0)
          && (i.op != 4 || (i.fld 2 63 19 == 0 && i.fld 2 7 0 == 0)))

/-- Sizes of a job (R188, R190, R191). -/
def jobSizes (i : Item) : Bool :=
  let walk := decide (8 ≤ i.tokBytes) && i.tokBytes % 8 == 0 && decide (i.fld 0 11 8 ≤ 10)
    && decide (1 ≤ i.fld 3 63 32) && i.fld 4 1 0 == 0
  match i.op with
  | 0 => decide (8 ≤ i.fld 3 31 0) && i.fld 3 2 0 == 0
  | 1 => decide (8 ≤ i.fld 3 31 0) && i.fld 3 2 0 == 0 && decide (1 ≤ i.fld 3 63 32)
      && i.fld 4 2 0 == 0 && i.fld 4 34 32 == 0
  | 2 => walk
  | 3 => (i.efmt == .e2m1s || i.efmt == .e4m3) && (!i.bt || walk) && i.fld 7 11 10 != 3
      && (i.fld 7 11 10 == 0 || i.runElems % 32 == 0) && i.fld 5 22 20 == 0 && (!i.scaled || scaleOk i.sc)
  | _ => decide (1 ≤ i.fld 3 15 0) && [Ty.f16, .bf16, .e4m3, .e5m2, .s8, .n8, .s4, .n4, .e2m1s].contains i.efmt
      && (i.fld 0 17 17 == 0 || i.fld 0 16 16 == 1) && decide (i.fld 2 18 0 + i.outBytes ≤ wbBytes)

/-- The ranges that a job reads as far as its card tells: kind, start, length. Which tokens of a pool it reads only
the table tells; they are held to the footprint when they are read (R179; log entry 83). -/
def Item.reads (i : Item) : List (Nat × Nat × Nat) :=
  let src := i.fld 1 63 0
  let table : List (Nat × Nat × Nat) :=
    let first := i.fld 3 31 0 / 2 ^ i.fld 0 11 8
    let last := (i.fld 3 31 0 + i.fld 3 63 32 - 1) / 2 ^ i.fld 0 11 8
    [(4, i.fld 4 63 0 + 4 * first, 4 * (last - first + 1))]
  match i.op with
  | 0 => [(i.srcKind, src, i.fld 3 31 0)]
  | 1 => (List.range (i.fld 3 63 32)).map (fun r => (i.srcKind, (src + r * i.fld 4 31 0) % 2 ^ 64, i.fld 3 31 0))
  | 2 => table
  | 3 => if i.bt then table else [(i.srcKind, src, (i.fld 3 31 0 * i.efmt.width + 7) / 8)]
  | _ => [(i.srcKind, src, i.fld 3 15 0 *
      (if i.fld 0 17 17 = 1 then stepBytes (kOf i.efmt) true else 1024))]

/-- The ranges that a job writes, those of a ring apart. -/
def Item.writes (i : Item) : List (Nat × Nat × Nat) :=
  let dst := i.fld 2 63 0
  if i.ring.isSome then []
  else if i.op = 1 then
    (List.range (i.fld 3 63 32)).map (fun r => (i.dstKind, (dst + r * i.fld 4 63 32) % 2 ^ 64, i.fld 3 31 0))
  else [(i.dstKind, dst, i.outBytes)]

/-- A job card obeys R187 to R191 and lies in its footprint (R179). -/
def jobOk (kib : Nat) (i : Item) : Bool :=
  decide (i.op ≤ 4) && i.fld 0 63 48 == 0 && i.fld 0 23 19 == 0 && i.fld 5 63 40 == 0 && i.fld 5 2 0 == 0
    && i.fld 7 63 12 == 0 && i.fld 7 9 9 == 0 && completionOk kib i
    && jobZeros i && jobEnds i && jobSizes i
    && i.reads.all (fun r => r.2.2 == 0 || inside i.fp false r.1 r.2.1 r.2.2)
    && i.writes.all (fun r => r.2.2 == 0 || inside i.fp true r.1 r.2.1 r.2.2)
    && (match i.ring with
        | some r => slotsOk i.fp true r (i.fld 2 13 8) (i.slots r)
        | none => true)

/-! ## Enqueueing (R176, R300) -/

/-- The words of scratchpad from an offset on. -/
def Cohort.spWords (h : Cohort) (off n : Nat) : List Word := (List.range n).map (fun k => h.sp64 (off + 8 * k))

/-- The footprint and scale blocks that a record or card names (R176, R181): offset, length, alignment (log
entry 39). -/
def blocksOf (task : Bool) (w : List Word) : List (Nat × Nat × Nat) :=
  let i : Item := { id := 0, core := 0, uid := 0, idx := 0, pc := 0, task := task, words := w }
  if (task && i.op == 3) || decide (5 ≤ i.op) then []
  else
    let sc := if task then i.op == 1 else i.scaled
    (i.fld 5 19 0, 128, if task then 16 else 8)
      :: (if sc then [(if task then i.fld 4 19 0 else i.fld 5 39 20, 32, if task then 32 else 8)] else [])

/-- What an MMQ or CPQ reads at issue (R176): the record or card at `off`, then the blocks that it names; none when
one of them does not lie in the allocation at its alignment. -/
def Cohort.recordWords (h : Cohort) (off : Nat) (task : Bool) : Option (List Word) :=
  let w := h.spWords off 8
  let bs := blocksOf task w
  if bs.all (fun b => b.1 % b.2.2 == 0 && decide (b.1 + b.2.1 ≤ 1024 * h.sh.kib)) then
    some (w ++ bs.flatMap (fun b => h.spWords b.1 (b.2.1 / 8)))
  else none

/-- The item that these words make, without its footprint. -/
def bareItem (c : Crew) (h : Cohort) (task : Bool) (ws : List Word) : Item :=
  let side := h.side c.idx
  let i : Item := { id := 0, core := h.coreOf c.idx, uid := c.uid, idx := c.idx, pc := c.r.pc, task := task
                    words := ws.take 8, sc := ws.drop 24, xto := c.trapXto }
  let ring (n : Nat) : Option Ring := SMap.get none h.rings (8 * side + n)
  { i with ring :=
      if task then (if i.op = 3 ∨ i.op = 4 then none else ring (i.fld 1 2 0))
      else if i.dstRing && (i.op == 2 || i.op == 3) then ring (i.fld 2 2 0) else none }

/-- The item that these words make (R176): none when it breaks a rule of its chapter. -/
def itemOf (c : Crew) (h : Cohort) (tiles : Nat) (task : Bool) (ws : List Word) : Option Item :=
  let i := bareItem c h task ws
  if task && i.op == 3 then (if ringOk h.sh.kib i then some i else none)
  else if 5 ≤ i.op then none
  else match footprint h.sh.kib tiles (!task) ((ws.drop 8).take 16) with
    | none => none
    | some fp =>
      let i := { i with fp := fp }
      if (if task then taskOk h.sh.kib tiles i else jobOk h.sh.kib i) then some i else none

/-- The item of a record or card at `off` with what is read at issue (R176); none when it breaks a rule. -/
def readItem (c : Crew) (h : Cohort) (tiles off : Nat) (task : Bool) : Option Item :=
  (h.recordWords off task).bind (itemOf c h tiles task)

/-- The item of words that were read and checked when the MMQ or CPQ issued; its ring is that which the core's
last RINGDEF defines when the item is accepted (R181; log entry 43). -/
def heldItem (c : Crew) (h : Cohort) (tiles : Nat) (task : Bool) (ws : List Word) : Item :=
  { bareItem c h task ws with fp := (footprint h.sh.kib tiles (!task) ((ws.drop 8).take 16)).getD [] }

/-- The item has a global region on another device (R116). -/
def Item.far (i : Item) (devid : Nat) : Bool :=
  i.fp.any (fun r => r.kind == 4 && (decide (r.start / 2 ^ 54 ≠ devid)
    || decide ((r.start + r.len - 1) / 2 ^ 54 ≠ devid)))

/-- Items that a core's scheduler holds (R176). -/
def schedSlots : Nat := 64

/-- Put an item on its core's scheduler (R176, R181, R185): a RINGDEF defines its ring for what the core
accepts after it; a job with a global write region is an effect (R245). -/
def State.enqueueItem (s : State) (c : Crew) (h : Cohort) (i : Item) : State :=
  let side := h.side c.idx
  let mmqs := if i.task then SMap.set 0 s.eng.mmqs i.core (SMap.get 0 s.eng.mmqs i.core + 1) else s.eng.mmqs
  let i := { i with id := s.fresh.id, mmq := SMap.get 0 mmqs i.core }
  let f (h : Cohort) : Cohort :=
    { h with
      rings := if i.task && i.op == 3 then SMap.set none h.rings (8 * side + i.fld 1 2 0) (some i.ringDef) else h.rings
      effects := h.effects || i.fp.any (fun r => r.write && r.kind == 4) }
  let s := s.bumpId
  let s := { s with eng := { s.eng with items := s.eng.items ++ [i], mmqs := mmqs } }
  (s.modCohort h.uid f).finish c (f h)

/-- The offset of the first poisoned byte of scratchpad ranges (R244). -/
def State.spBadAt (s : State) (h : Cohort) (l : List (Nat × Nat)) : Option Nat :=
  l.findSome? (fun b => (s.firstPoison (h.spKey b.1) b.2).map (b.1 + ·))

/-- The end of an MMQ or CPQ once its words are read and checked (R176): the release, then a place on the core's
scheduler, for which it stalls. The words stay as they were read. -/
def State.acceptItem (s : State) (c : Crew) (h : Cohort) (ws : List Word) (i : Item) : State :=
  let c := { c with w := { c.w with held := ws } }
  s.releasing c h (if i.far s.devid then 4 else 3)
    (if schedSlots ≤ (s.eng.items.filter (fun x => x.core == i.core)).length then
      s.putCrew { c with w := { c.w with kind := .none } }
     else s.enqueueItem c h i)

/-- The mould of MMQ and CPQ (R176, R300). Poisoned data in what they read is an ECC fault before any effect, whose
FADDR is the offset of its first byte (log entry 77). -/
def enqueueOp (task : Bool) (a : Nat) (s : State) : Host.Outcome State Fault Refusal :=
  crewOp (fun s c h =>
    let off := c.sr a
    let tiles := (s.nodeOf h).tiles
    let ecc (x : Nat) : State := s.takeTrap c.issued h (c.trapAt 15 (BitVec.ofNat 64 x))
    let illegal : State := s.takeTrap c.issued h (c.trapAt 1 off)
    if !c.w.held.isEmpty then s.acceptItem c h c.w.held (heldItem c h tiles task c.w.held)
    else match spFault h off 64 64 with
    | some f => s.takeTrap c.issued h (c.trapAt f off)
    | none =>
      match s.spBadAt h [(off.toNat, 64)], h.recordWords off.toNat task with
      | some x, _ => ecc x
      | none, none => illegal
      | none, some ws =>
        match s.spBadAt h ((blocksOf task (ws.take 8)).map (fun b => (b.1, b.2.1))), itemOf c h tiles task ws with
        | some x, _ => ecc x
        | none, none => illegal
        | none, some i => s.acceptItem c h ws i) s

/-- MMQ (R175, R176, R300). -/
def execMmq (a : Nat) (s : State) : Host.Outcome State Fault Refusal := enqueueOp true a s

/-- CPQ (R175, R176, R300). -/
def execCpq (a : Nat) (s : State) : Host.Outcome State Fault Refusal := enqueueOp false a s

end Sys2Proof.Machine
end

