-- ==== Sys2Proof/Machine/Engine.lean ====
section
/-! DEFINITION. The engines at work: order by footprints (R119), accesses to global memory (R120), matrix
steps (R165 to R168, R183 to R185), jobs (R188 to R191), retirement and failure (R187, R193). -/

namespace Sys2Proof.Machine

/-! ## Items and their order -/

/-- The item of a number on a core. -/
def State.item? (s : State) (core id : Nat) : Option Item :=
  s.eng.items.find? (fun i => i.core == core && i.id == id)

/-- Change one item. -/
def State.putItem (s : State) (it : Item) : State :=
  { s with eng := { s.eng with
      items := s.eng.items.map (fun i => if i.core == it.core && i.id == it.id then it else i) } }

/-- Take an item off its scheduler. -/
def State.dropItem (s : State) (it : Item) : State :=
  { s with eng := { s.eng with items := s.eng.items.filter (fun i => !(i.core == it.core && i.id == it.id)) } }

/-- Two items name one ring of one cohort and one of them defines it (R181). -/
def ringConflict (x y : Item) : Bool :=
  let ring (i : Item) : Option Nat :=
    if i.task then (if i.op = 4 then none else some (i.fld 1 2 0))
    else if i.ring.isSome then some (i.fld 2 2 0) else none
  let def_ (i : Item) : Bool := i.task && i.op == 3
  x.uid == y.uid && (def_ x || def_ y) && ring x == ring y && (ring x).isSome

/-- An edge from the earlier item `x` to `y` (R119, R181). -/
def edge (x y : Item) : Bool :=
  ringConflict x y || x.fp.any (fun a => y.fp.any (fun b =>
    (a.write || b.write) && a.overlaps (x.uid == y.uid) b))

/-- Every earlier item with an edge to this one has completed (R119). -/
def State.clear (s : State) (it : Item) : Bool :=
  s.eng.items.all (fun x => x.core != it.core || decide (it.id ≤ x.id) || !edge x it)

/-- The item may make an access now. -/
def State.itemGoes (s : State) (it : Item) : Bool :=
  s.clear it && !it.done && it.fail.isNone && it.wait.isNone && it.remote.isNone

/-! ## Global memory, read and written by an item (R120) -/

/-- A read of an item: a value, or why there is none yet. A read from elsewhere names the device, or none and the
home in host memory, the word and the first byte wanted of it. -/
inductive Rd (α : Type) where
  | ok (v : α)
  | wait (va : Word)
  | remote (dev : Option Nat) (key : Nat) (va first : Word)
  | bad (cause : Nat) (va : Word)

/-- Go on with the value. -/
def Rd.bind {α β : Type} (r : Rd α) (f : α → Rd β) : Rd β :=
  match r with
  | .ok v => f v
  | .wait va => .wait va
  | .remote d k va f => .remote d k va f
  | .bad c va => .bad c va

/-- All values of a list, or the first read without one. -/
def Rd.all {α : Type} : List (Rd α) → Rd (List α)
  | [] => .ok []
  | r :: rest => r.bind (fun v => (Rd.all rest).bind (fun l => .ok (v :: l)))

/-- A read whose bytes before `lo` are not wanted: the first failing address is none of those (R193). -/
def Rd.from {α : Type} (r : Rd α) (lo : Word) : Rd α :=
  let up (a : Word) : Word := if a.toNat < lo.toNat then lo else a
  match r with
  | .ok v => .ok v
  | .wait va => .wait (up va)
  | .remote d k va f => .remote d k va (up f)
  | .bad c va => .bad c (up va)

/-- The aligned word at `va` as its home holds it now (R120), translated in the cohort's context. -/
def State.itemWord (s : State) (it : Item) (ctx : Nat) (va : Word) : Rd Word :=
  let away (dev : Option Nat) (key : Nat) : Rd Word := match it.cache.find? (fun e => e.1 == va.toNat) with
    | some e => .ok e.2
    | none => .remote dev key va va
  match s.route va with
  | .bad => .bad 4 va
  | .fenced d | .remote d => away (some d) 0
  | .own _ =>
    match s.xlate ctx va .load false with
    | none => .wait va
    | some (.req _, _) => .wait va
    | some (.fault c, _) => .bad c va
    | some (.home k, _) =>
      let key := k + va.toNat % 2 ^ 16
      if k / 2 ^ 56 = 2 then away none key
      else if s.poisoned key 8 then .bad 15 va else .ok (s.readKey key 8)

/-- `n` bytes at any address, word by word (R120). -/
def State.itemBytes (s : State) (it : Item) (ctx : Nat) (va : Word) (n : Nat) : Rd (List Byte) :=
  let lo := va.toNat / 8
  let count := if n = 0 then 0 else (va.toNat + n - 1) / 8 - lo + 1
  ((Rd.all ((List.range count).map (fun i => s.itemWord it ctx (BitVec.ofNat 64 (8 * (lo + i)))))).from va).bind
    (fun ws => .ok (((ws.flatMap (fun w => leBytes 8 w.toNat)).drop (va.toNat % 8)).take n))

/-- A timeout or a fenced device (R193, R200, R201): the flag of the crew that enqueued the item, and its
trap when its MMQ or CPQ issued under TRAPEN.XTO and it has not exited: one for the item, with the lowest
address known when it is taken (log entry 20). -/
def State.itemFlag (s : State) (it : Item) (bit dev : Nat) (va : Word) (fence : Bool) : State :=
  s.modCrew it.uid it.idx (fun c =>
    let c := c.setXsr s.clk.cycle bit dev
    let x := if fence then dev else 0
    let lower (t : Trap) : Trap := if t.late && t.pc == it.pc && t.cause == 4 && t.lanes == 0
      && decide (va.toNat < t.addr.toNat) then { t with addr := va, xdev := x } else t
    if !it.xto || c.g.exited then c
    else if it.told then { c with pend := c.pend.map lower }
    else { c with pend := c.pend ++
      [{ cause := 4, pc := it.pc, addr := va, resume := c.r.pc, xdev := x, late := true }] })

/-- An item ends with a cause (R193); a malformed entry that the access met is counted (R128). -/
def State.itemBad (s : State) (it : Item) (ctx cause : Nat) (va : Word) (a : Acc) : State :=
  (s.noteMalformed ctx va a).putItem { it with fail := some (cause, va, 0), done := true }

/-- What an item does that cannot go on: it waits for a page (R132), asks another device (R199) or the host
(R209), or ends with a cause (R193). -/
def State.itemStop {α : Type} (s : State) (it : Item) (ctx : Nat) : Rd α → State
  | .ok _ => s
  | .wait va => (s.devAsk ctx va .load).putItem { it with wait := some va }
  | .bad c va => s.itemBad it ctx c va .load
  | .remote (some d) _ va first =>
    if s.fab.fenced.contains d then
      (s.itemFlag it 0 d first true).putItem { it with cache := (va.toNat, allOnes 8) :: it.cache, told := true }
    else
      let (s1, rid) := s.newRemote (dieOf it.core) d ctx (.item it.core it.id false first) va 8 (.load 8)
      s1.putItem { it with remote := some rid }
  | .remote none key va first =>
    let (s1, rid) := s.newHost ctx key (.item it.core it.id false first) va 8 (.load 8)
    s1.putItem { it with remote := some rid }

/-- The word of a COPY2D that is written `k`-th, as its row and its place there: rows follow each other, unless
they overlap or wrap; then the words go by their addresses, and by row where those are equal (R188). -/
def Item.word2d (it : Item) (k : Nat) : Nat × Nat :=
  let wpr := it.fld 3 31 0 / 8
  let rows := it.fld 3 63 32
  let addr (x : Nat × Nat) : Nat := (it.fld 2 63 0 + x.1 * it.fld 4 63 32 + 8 * x.2) % 2 ^ 64
  if 8 * wpr ≤ it.fld 4 63 32 ∧ it.fld 2 63 0 + rows * it.fld 4 63 32 ≤ 2 ^ 64 then (k / wpr, k % wpr)
  else (sortBy (fun a b => decide (addr a ≤ addr b))
    ((List.range rows).flatMap (fun r => (List.range wpr).map (fun i => (r, i))))).getD k (0, 0)

/-- The address of output byte `p` of a job without a ring. -/
def Item.dstAt (it : Item) (p : Nat) : Nat :=
  if it.op = 1 then
    let x := it.word2d (p / 8)
    (it.fld 2 63 0 + x.1 * it.fld 4 63 32 + 8 * x.2 + p % 8) % 2 ^ 64
  else it.fld 2 63 0 + p

/-- A job that has written every word of a poisoned line clears the line's poison, as a write of the whole line
(R244, log entry 19): `stop` bytes are written, the last of them to the word at `a`, whose key is `key`. -/
def State.lineDone (s : State) (it : Item) (stop a key : Nat) : State :=
  let whole : Bool := (List.range 8).all (fun i =>
    (List.range ((stop + 7) / 8)).any (fun k => it.dstAt (8 * k) == a / 64 * 64 + 8 * i))
  if s.mem.poison.contains (key / 64) && whole then
    { s with mem := { s.mem with poison := s.mem.poison.filter (fun l => l != key / 64) } }
  else s

/-- Write up to eight bytes of one word at a global address: performed at its home now (R120); `it` is the item as it
stands after it. -/
def State.itemStore (s : State) (it0 it : Item) (ctx : Nat) (va : Word) (bs : List Byte) : State :=
  let k : ReqKind := .store bs.length [BitVec.ofNat 64 (leVal bs)]
  let who : Asker := .item it.core it.id true va
  match s.route va with
  | .bad => s.itemBad it0 ctx 4 va .store
  | .fenced d => (s.itemFlag it 1 d va true).putItem { it with told := true }
  | .remote d =>
    let (s1, rid) := s.newRemote (dieOf it.core) d ctx who va bs.length k
    s1.putItem { it with remote := some rid }
  | .own _ =>
    match s.xlate ctx va .store false with
    | none => (s.devAsk ctx va .store).putItem { it0 with wait := some va }
    | some (.req _, _) => (s.devAsk ctx va .store).putItem { it0 with wait := some va }
    | some (.fault c, _) => s.itemBad it0 ctx c va .store
    | some (.home h, _) =>
      let key := h + va.toNat % 2 ^ 16
      if h / 2 ^ 56 = 2 then
        let (s1, rid) := s.newHost ctx key who va bs.length k
        s1.putItem { it with remote := some rid }
      else ((s.perform key bs).lineDone it0 (it0.pos + bs.length) va.toNat key).putItem it

/-! ## The windowed dot product (R165 to R168) -/

/-- A term of a step: a value, or the invalid product 0 × ∞. -/
inductive Term where
  | val (v : FV)
  | invalid
deriving DecidableEq, Repr

/-- The product of two elements times 2^h (R165). -/
def termOf (h : Int) (a b : FV) : Term :=
  if a.isNan || b.isNan then .val (.nan false)
  else match mulExact a b with
    | some v => .val (v.scale h)
    | none => .invalid

/-- W of a W code (R166). -/
def wBits (code : Nat) : Nat := [16, 20, 24, 28, 32, 40, 48, 64].getD code 16

/-- The result of a step for one element: pattern, LS, IV, OF. -/
structure StepRes where
  bits : Nat
  ls : Bool := false
  iv : Bool := false
  ov : Bool := false
deriving DecidableEq, Repr

/-- floor(log2 |v|) of a non-zero finite value. -/
def topBit (m : Nat) (e : Int) : Int := (bitLen m : Int) - 1 + e

/-- WindowStep (R166). -/
def windowStep (w : Nat) (ts : List Term) : StepRes :=
  let vs := ts.filterMap (fun t => match t with | .val v => some v | .invalid => none)
  let pinf := vs.any (fun v => match v with | .inf n => !n | _ => false)
  let ninf := vs.any (fun v => match v with | .inf n => n | _ => false)
  let bad := ts.any (· == .invalid) || (pinf && ninf)
  if bad || vs.any FV.isNan then { bits := Fmt.nan .f32, iv := bad }
  else if pinf then { bits := Fmt.infBits .f32 }
  else if ninf then { bits := Fmt.signBit .f32 + Fmt.infBits .f32 }
  else
    let nz : List (Bool × Nat × Int) := vs.filterMap (fun v => match v with
      | .fin n m e => if m = 0 then none else some (n, m, e)
      | _ => none)
    match nz with
    | [] =>
      let allNeg := vs.all (fun v => match v with | .fin n _ _ => n | _ => false)
      { bits := if allNeg then Fmt.signBit .f32 else 0 }
    | t :: r =>
      let emax := r.foldl (fun x u => max x (topBit u.2.1 u.2.2)) (topBit t.2.1 t.2.2)
      let q := emax - w + 1
      let kept (m : Nat) (e : Int) : Nat := if q ≤ e then m * 2 ^ (e - q).toNat else m / 2 ^ (q - e).toNat
      let lost (m : Nat) (e : Int) : Bool := !(decide (q ≤ e)) && m % 2 ^ (q - e).toNat != 0
      let sum : Int := nz.foldl (fun x u => if u.1 then x - kept u.2.1 u.2.2 else x + kept u.2.1 u.2.2) 0
      let ls := nz.any (fun u => lost u.2.1 u.2.2)
      if sum = 0 then { bits := 0, ls := ls }
      else
        let y := roundF .f32 1 false false 0 (decide (sum < 0)) sum.natAbs q false
        { bits := y.1, ls := ls, ov := y.2.ov }

/-- IntStep (R168): the pattern, and whether it was clamped. -/
def intStep (sat : Bool) (prods : List Int) (acc : Int) : Nat × Bool :=
  let x := prods.foldl (· + ·) acc
  if sat then (wrapTo 32 (clampInt .s32 x), clampInt .s32 x != x) else (wrapTo 32 x, false)

/-! ## Operands of a step -/

/-- Element `m` of packed bytes (R183): the even element of a 4-bit pair in the low bits. -/
def packedElem (w : Nat) (bs : List Byte) (m : Nat) : Nat :=
  if w = 4 then (bs.getD (m / 2) 0).toNat / 16 ^ (m % 2) % 16
  else if w = 8 then (bs.getD m 0).toNat
  else (bs.getD (2 * m) 0).toNat + 256 * (bs.getD (2 * m + 1) 0).toNat

/-- All `n` elements of packed bytes. -/
def packedElems (w n : Nat) (bs : List Byte) : List Nat :=
  let l := bs.flatMap (fun b => if w = 4 then [b.toNat % 16, b.toNat / 16] else [b.toNat])
  if w = 16 then (List.range n).map (packedElem 16 bs) else l.take n

/-- Cut a list into runs of `k`, `n` of them. -/
def chunks {α : Type} (k : Nat) : Nat → List α → List (List α)
  | 0, _ => []
  | n + 1, l => l.take k :: chunks k n (l.drop k)

/-- Decompress a B step into columns (R184): the elements of each position, none where 2:4 compression
skips it. -/
def bColumns (t : Ty) (k : Nat) (sparse : Bool) (bs : List Byte) : List (List (Option Nat)) :=
  if !sparse then (chunks k 32 (packedElems t.width (32 * k) bs)).map (fun c => c.map some)
  else
    let vals := chunks 2 (8 * k) (packedElems t.width (16 * k) (bs.take 512))
    let meta_ := packedElems 4 (8 * k) (bs.drop 512)
    let groups : List (List (Option Nat)) := (vals.zip meta_).map (fun (v, m) =>
      (List.range 4).map (fun p =>
        if p = m % 4 then some (v.getD 0 0)
        else if p = m / 4 then some (v.getD 1 0) else none))
    (chunks (k / 4) 32 groups).map List.flatten

/-- The value of an element of a task operand under its scale entry (R152, R156): `sc` is the scale code
and the spare, none for an unscaled format. -/
def opElem (t : Ty) (x : Nat) (sc : Option (Nat × Nat)) : FV :=
  let v : FV := match t with
    | .e2m1s => decodeE2M1S x (match sc with | some (_, sp) => sp | none => 0)
    | .s8 => let i := toSigned 8 x; .fin (decide (i < 0)) i.natAbs 0
    | _ => decodeF t x
  match sc with
  | some (e, _) => blockElem v e
  | none => v

/-! ## Scale entries (R156, R180, R185) -/

/-- Bytes of a scale entry (R156). -/
def entryBytes (t : Ty) : Nat := if t = .e2m1s then 2 else 1

/-- The address of the entry of element `n` (R156). -/
def scaleAddr (t : Ty) (base shift n : Nat) : Nat := (base + n / 2 ^ shift * entryBytes t) % 2 ^ 64

/-- The addresses of the scale entries that step `j` of a task reads: by row for A, by column for B, for
each position. -/
def scaleAddrs (it : Item) (isB : Bool) (k j : Nat) : List (List Nat) :=
  let t : Ty := .ofCode (if isB then it.fld 0 11 8 else it.fld 0 7 4)
  let base := (it.sc.getD (if isB then 1 else 0) 0).toNat
  let sh := (it.sc.getD 2 0).toNat
  let shift := if isB then bitsOf sh 7 4 else bitsOf sh 3 0
  let st := (it.sc.getD 3 0).toNat
  let stride := if isB then bitsOf st 63 32 else bitsOf st 31 0
  (List.range 32).map (fun r => (List.range k).map (fun κ => scaleAddr t base shift (r * stride + j * k + κ)))

/-- Lines of a core's scale cache (R185). -/
def scaleLines : Nat := 512

/-- A line that the task may use. -/
def State.scaleLine (s : State) (it : Item) (ctx line : Nat) : Option ScaleLine :=
  s.eng.scale.find? (fun l => l.core == it.core && l.ctx == ctx && l.line == line && decide (it.mmq ≤ l.mmq))

/-- The lines of a core's cache without the one that leaves when it is full: the oldest that the step under way does
not need, of the context and lines `need` (log entry 8). -/
def scaleRoom (mine : List ScaleLine) (ctx : Nat) (need : List Nat) : List ScaleLine :=
  if mine.length < scaleLines then mine
  else match (mine.reverse.find? (fun x => !(x.ctx == ctx && need.contains x.line))) <|> mine.getLast? with
    | some x => mine.erase x
    | none => mine

/-- Fill the cache with those lines of a step's list `need` that are still to be looked at. A job reads each line anew,
since the count of MMQs does not tell which lines are younger than it (R120; log entry 42). A line that cannot be read
fails the item at the first of its words that cannot (R193), not at the entry wanted: the model's choice (log entry 114). -/
def State.fillScale (s : State) (it : Item) (ctx : Nat) (need : List Nat) : List Nat → State × Rd Unit
  | [] => (s, .ok ())
  | line :: rest =>
    match (if it.task then s.scaleLine it ctx line else none) with
    | some _ => s.fillScale it ctx need rest
    | none =>
      match Rd.all ((List.range 8).map (fun i => s.itemWord it ctx (BitVec.ofNat 64 (64 * line + 8 * i)))) with
      | .ok ws =>
        let l : ScaleLine := { core := it.core, ctx := ctx, line := line
                               mmq := SMap.get 0 s.eng.mmqs it.core, words := ws }
        let old := s.eng.scale.filter (fun x => !(x.core == it.core && x.ctx == ctx && x.line == line))
        let mine := scaleRoom (old.filter (fun x => x.core == it.core)) ctx need
        let other := old.filter (fun x => x.core != it.core)
        ({ s with eng := { s.eng with scale := l :: (other ++ mine) } }).fillScale it ctx need rest
      | .wait va => (s, .wait va)
      | .remote d k va f => (s, .remote d k va f)
      | .bad c va => (s, .bad c va)

/-- A byte of the scale cache. -/
def State.scaleByte (s : State) (it : Item) (ctx a : Nat) : Nat :=
  match s.scaleLine it ctx (a / 64) with
  | some l => (l.words.getD (a % 64 / 8) 0).toNat / 256 ^ (a % 8) % 256
  | none => 0

/-- Scale code and spare at an address. -/
def State.scaleEntry (s : State) (it : Item) (ctx : Nat) (t : Ty) (a : Nat) : Nat × Nat :=
  (s.scaleByte it ctx a, if t = .e2m1s then s.scaleByte it ctx ((a + 1) % 2 ^ 64) else 0)

/-! ## A matrix step (R183, R192) -/

/-- Bytes of the weight buffer, as its single copy holds them now (R120). -/
def State.wbRead (s : State) (core off n : Nat) : List Byte :=
  (List.range n).map (fun i => SMap.get 0 s.eng.wb (core * wbBytes + off + i))

/-- The lowest byte of a range that lies in a granule the instance may not read (R192, R193). -/
def State.wbDenied (s : State) (core serial off n : Nat) : Option Nat :=
  ((List.range n).map (off + ·)).find? (fun a => SMap.get 0 s.eng.wbOwner (128 * core + a / 4096) != serial)

/-- Bytes of scratchpad, as its single copy holds them now (R120). -/
def Cohort.spBytes (h : Cohort) (off n : Nat) : List Byte :=
  (List.range n).map (fun i => BitVec.ofNat 8 ((h.sp64 (off + i)).toNat / 256 ^ ((off + i) % 8)))

/-- Replace the entries of a map whose keys lie from `lo` on by a list of consecutive values. -/
def putRun {α : Type} [DecidableEq α] (z : α) (m : SMap α) (lo : Nat) (l : List α) : SMap α :=
  m.filter (fun e => e.1 < lo)
    ++ ((l.mapIdx (fun i v => (lo + i, v))).filter (fun e => e.2 ≠ z))
    ++ m.filter (fun e => lo + l.length ≤ e.1)

/-- The scratchpad offset of the A bytes of a step, and the weight-buffer range of its B bytes (R183, R184). -/
def Item.stepA (it : Item) (r : Ring) : Nat :=
  let slot := (it.fld 1 13 8 + it.pos / r.slotKib) % r.count
  r.base + slot * r.slotKib * 1024 + it.pos % r.slotKib * 1024

def Item.stepB (it : Item) : Nat × Nat :=
  let sb := stepBytes (kOf (.ofCode (it.fld 0 7 4))) it.sparse
  (it.fld 2 10 0 * 256 + it.pos * sb, sb)

/-- Why a step cannot read its operands (R192, R193, R244): a granule of B that its instance may not read, or
poisoned data, with the offset that FADDR reports. A step that meets both takes PROT: the model's choice (log entry
114). -/
def State.stepFail (s : State) (it : Item) (h : Cohort) (r : Ring) : Option (Nat × Nat) :=
  let (off, n) := it.stepB
  match s.wbDenied it.core h.serial off n with
  | some a => some (5, a)
  | none => match s.firstPoison (h.spKey (it.stepA r)) 1024 with
    | some i => some (15, it.stepA r + i)
    | none => (s.firstPoison (wbKey it.core off) n).map (fun i => (15, off + i))

/-- Compute the step `it.pos` of a task and write its tile (R165 to R168, R183). A step reads its operands at one
instant, one of those that R120 allows each word: the model's choice (log entry 82). -/
def State.runStep (s : State) (it : Item) (h : Cohort) (r : Ring) : State :=
  let op := it.op
  let ta : Ty := .ofCode (it.fld 0 7 4)
  let tb : Ty := .ofCode (it.fld 0 11 8)
  let k := kOf ta
  let j := it.pos
  let slot := (it.fld 1 13 8 + j / r.slotKib) % r.count
  let araw := chunks k 32 (packedElems ta.width (32 * k)
    (h.spBytes (it.stepA r) 1024))
  let braw := bColumns tb k it.sparse (s.wbRead it.core it.stepB.1 it.stepB.2)
  let ent (t : Ty) (l : List (List Nat)) : List (List (Option (Nat × Nat))) :=
    l.map (fun x => x.map (fun a => some (s.scaleEntry it h.ctx t a)))
  let nosc : List (List (Option (Nat × Nat))) := List.replicate 32 (List.replicate k none)
  let asc := if op = 1 then ent ta (scaleAddrs it false k j) else nosc
  let bsc := if op = 1 then ent tb (scaleAddrs it true k j) else nosc
  let had := it.fld 7 11 10
  let hx : Int := if had = 1 then -4 else if had = 2 then -5 else 0
  let tile := 64 * (it.core - h.sh.core) + it.fld 3 5 0
  let clr := it.fld 0 19 19 == 1 && j == 0
  let tl := if clr then h.tl.clear tile else h.tl
  let acc (i c : Nat) : Nat := (SMap.get 0 tl.e (tileKey tile i c)).toNat
  let arows : List (List FV) := (araw.zip asc).map (fun (x, y) => (x.zip y).map (fun (n, e) => opElem ta n e))
  let bcols : List (List (Option FV)) := (braw.zip bsc).map (fun (x, y) =>
    (x.zip y).map (fun (n, e) => n.map (fun v => opElem tb v e)))
  let iprods (x : List Nat) (y : List (Option Nat)) : List Int := (x.zip y).filterMap (fun (a, b) =>
    b.map (fun v => readInt ta a * readInt tb v))
  let res : List StepRes := (List.range 32).flatMap (fun i => (List.range 32).map (fun c =>
    if op = 2 then
      let y := intStep (it.fld 7 9 9 == 1) (iprods (araw.getD i []) (braw.getD c [])) (toSigned 32 (acc i c))
      { bits := y.1, ov := y.2 }
    else
      let ps := ((arows.getD i []).zip (bcols.getD c [])).filterMap (fun (a, b) => b.map (termOf hx a))
      windowStep (wBits (it.fld 0 18 16)) (ps ++ [.val (decodeF .f32 (acc i c))])))
  let iv := if res.any (·.iv) then 1 else 0
  let ov := res.any (·.ov)
  let new_ := iv ||| (if ov then (if op = 2 then 4 else 2) else 0)
  let tl2 : Tiles :=
    { e := putRun 0 tl.e (1024 * tile) (res.map (fun x => BitVec.ofNat 32 x.bits))
      ls := if op = 2 then tl.ls
        else putRun false tl.ls (1024 * tile)
          (res.mapIdx (fun n x => x.ls || SMap.get false tl.ls (1024 * tile + n)))
      st := SMap.set 0 tl.st tile (SMap.get 0 tl.st tile ||| new_) }
  let last := j % r.slotKib + 1 == r.slotKib
  let f (h : Cohort) : Cohort :=
    let h1 := { h with tl := tl2 }
    if last then h1.setFull (r.tag + 8 * slot) false else h1
  (s.modCohort h.uid f).putItem { it with pos := j + 1, cache := [], done := j + 1 == it.nstep }

/-- After an item has gone or may have come to wait: its cohort may retire, or its storage be freed (R194, R306, R307). -/
def State.afterItem (s : State) (uid : Nat) : State := ((s.dropStuck uid).sweepDead uid).tryRetire uid

/-- An item has run on: one of an aborted cohort that comes to an unready tag goes when nothing can turn the tag (R194). -/
def State.ranOn (s : State) (it : Item) : State := if it.aborted then s.afterItem it.uid else s

/-- MATRIX_STEP: the next step of a started task, once its slot's tag is full, its B granules are its
instance's and its scale entries have been read. -/
def execMatrixStep (core id : Nat) (s : State) : Host.Outcome State Fault Refusal :=
  .next (match s.item? core id with
    | none => s
    | some it =>
      match s.cohort? it.uid, it.ring with
      | some h, some r =>
        let other := s.eng.items.any (fun x => x.core == core && x.id != id && x.task && decide (0 < x.pos) && !x.done)
        if !(it.task && decide (it.op ≤ 2) && it.sub == 1 && s.itemGoes it && !it.tagWait h) || other then s
        else
          let k := kOf (.ofCode (it.fld 0 7 4))
          match s.stepFail it h r with
          | some (f, a) => s.putItem { it with fail := some (f, BitVec.ofNat 64 a, 0), done := true }
          | none =>
            let lines (isB : Bool) : List Nat :=
              let t : Ty := .ofCode (if isB then it.fld 0 11 8 else it.fld 0 7 4)
              ((scaleAddrs it isB k it.pos).flatten.flatMap (fun a =>
                [a / 64, (a + (entryBytes t - 1)) % 2 ^ 64 / 64])).eraseDups
            let need := if it.op = 1 then (lines false ++ lines true).eraseDups else []
            match s.fillScale it h.ctx need need with
            | (s1, .ok _) => (s1.runStep it h r).ranOn it
            | (s1, x) => s1.itemStop it h.ctx x
      | _, _ => s)

/-- A task starts once its edges clear (R119, R183). -/
def State.startTask (s : State) (core id op : Nat) (f : State → Item → State) : State :=
  match s.item? core id with
  | none => s
  | some it => if it.task && it.op == op && it.sub == 0 && s.itemGoes it then f s { it with sub := 1 } else s

/-- TASK_MMA (R183). -/
def execTaskMma (core id : Nat) (s : State) : Host.Outcome State Fault Refusal :=
  .next (s.startTask core id 0 State.putItem)

/-- TASK_MMA_SC (R183). -/
def execTaskMmaSc (core id : Nat) (s : State) : Host.Outcome State Fault Refusal :=
  .next (s.startTask core id 1 State.putItem)

/-- TASK_MMA_INT (R168). -/
def execTaskMmaInt (core id : Nat) (s : State) : Host.Outcome State Fault Refusal :=
  .next (s.startTask core id 2 State.putItem)

/-- TASK_RINGDEF (R181): the definition has held for later records since the MMQ was accepted; in scheduler
order nothing else is left to do. -/
def execTaskRingdef (core id : Nat) (s : State) : Host.Outcome State Fault Refusal :=
  .next (s.startTask core id 3 (fun s it => s.putItem { it with done := true }))

/-- TASK_TCLEAR (R178): the effect of TZERO on the tile. -/
def execTaskTclear (core id : Nat) (s : State) : Host.Outcome State Fault Refusal :=
  .next (s.startTask core id 4 (fun s it =>
    (s.modCohort it.uid (fun h => { h with tl := h.tl.clear (64 * (core - h.sh.core) + it.fld 3 5 0) })).putItem
      { it with done := true }))

/-! ## Jobs (R188 to R191) -/

/-- Source bytes of a job, in scratchpad or global: each word as its single copy or its home holds it now (R120). -/
def State.srcBytes (s : State) (it : Item) (h : Cohort) (a n : Nat) : Rd (List Byte) :=
  if it.srcSp then match s.firstPoison (h.spKey a) n with
    | some i => .bad 15 (BitVec.ofNat 64 (a + i))
    | none => .ok (h.spBytes a n)
  else s.itemBytes it h.ctx (BitVec.ofNat 64 a) n

/-- The place of token `t` in the pool in tokens, none for a hole (R189). -/
def State.tokenAt (s : State) (it : Item) (h : Cohort) (t : Nat) : Rd (Option Nat) :=
  let lg := it.fld 0 11 8
  (s.itemBytes it h.ctx (BitVec.ofNat 64 (it.fld 4 63 0 + 4 * (t / 2 ^ lg))) 4).bind (fun bs =>
    .ok (if leVal bs = 0xFFFFFFFF then none else some (leVal bs * 2 ^ lg + t % 2 ^ lg)))

/-- Bytes of a token of the pool. A token outside the footprint fails as ACCESS at the first byte outside (R118,
R179; log entry 83). -/
def State.poolBytes (s : State) (it : Item) (h : Cohort) (a n : Nat) : Rd (List Byte) :=
  let a := a % 2 ^ 64
  if inside it.fp false 4 a n then s.srcBytes it h a n
  else .bad 4 (BitVec.ofNat 64 (max a (reach (it.fp.filter (fun r => r.write == false && r.kind == 4)) a 5)))

/-- Elements of a WIDEN that are read together: a Hadamard run, or one output word. -/
def Item.gran (it : Item) : Nat := if it.fld 7 11 10 = 0 then 4 else 32

/-- Units that a job reads. -/
def Item.units (it : Item) : Nat :=
  match it.op with
  | 0 | 1 | 2 => it.outBytes / 8
  | 3 => (it.outBytes / 2 + it.gran - 1) / it.gran
  | _ => if it.fld 0 17 16 = 1 then it.fld 3 15 0 else it.outBytes / 8

/-- Units that a job reads of each token, none when it walks no block table (R189, R190). -/
def Item.perToken (it : Item) : Option Nat :=
  if it.op = 2 then some (it.tokBytes / 8)
  else if it.op = 3 && it.bt then some (it.runElems / it.gran)
  else none

/-- BF16 values of a run of a WIDEN from its elements (R190): scaled, rounded, then transformed. -/
def widenRun (it : Item) (vs : List FV) : List Nat :=
  let y := vs.map (fun v => (convertF .bf16 1 false false 0 v).1)
  let had := it.fld 7 11 10
  if had = 0 then y
  else (List.range 32).map (fun i => (sumF .bf16 1 false (hadTerms (had == 2) (y.map (decodeF .bf16)) i)).1)

/-- The elements of unit `u` of a WIDEN (R190): the scale index of the first, and their number; none in a hole.
`p` is the place of the unit's token in the pool. -/
def Item.widenSpan (it : Item) (u : Nat) (p : Option Nat) : Option (Nat × Nat) :=
  let g := it.gran
  match it.perToken with
  | some upt => p.map (fun k => (k * it.runElems + g * (u % upt), g))
  | none => some (g * u, min g (it.runElems - g * u))

/-- The address of the scale entry of element `n` of a WIDEN (R156, R180, R190). -/
def Item.widenScale (it : Item) (n : Nat) : Nat :=
  scaleAddr it.efmt (it.sc.getD 0 0).toNat (bitsOf (it.sc.getD 2 0).toNat 3 0) n

/-- The lines of the scale cache that unit `u` of a WIDEN needs (R185). -/
def Item.unitLines (it : Item) (u : Nat) (p : Option Nat) : List Nat :=
  match (if it.scaled then it.widenSpan u p else none) with
  | none => []
  | some (i, n) => ((List.range n).flatMap (fun e =>
      let a := it.widenScale (i + e)
      [a / 64, (a + (entryBytes it.efmt - 1)) % 2 ^ 64 / 64])).eraseDups

/-- A run of `n` elements of a WIDEN, the first with the scale index `idx`, from their bytes. -/
def State.widenAt (s : State) (it : Item) (h : Cohort) (idx n : Nat) (bs : List Byte) : List Byte :=
  let t := it.efmt
  (widenRun it ((packedElems t.width n bs).mapIdx (fun e x =>
    opElem t x (if it.scaled then some (s.scaleEntry it h.ctx t (it.widenScale (idx + e))) else none)))).flatMap
    (leBytes 2)

/-- The rank of an element for compression (R191): a NaN above every number. -/
def magRank (t : Ty) (spare x : Nat) : Nat :=
  let v : FV := match t with
    | .e2m1s => decodeE2M1S x spare
    | _ => if t.isInt then (let i := readInt t x; .fin (decide (i < 0)) i.natAbs 0) else decodeF t x
  match v with
  | .fin _ _ _ => (fix700 v.mag).toNat
  | .inf _ => 2 ^ 4000
  | .nan _ => 2 ^ 4001

/-- The positions a group keeps, in ascending order (R191). -/
def keepTwo (r : List Nat) : Nat × Nat :=
  let best (skip : Nat) : Nat := (List.range 4).foldl (fun b p =>
    if p = skip then b else if b = 4 ∨ r.getD b 0 < r.getD p 0 then p else b) 4
  let a := best 4
  let b := best a
  (min a b, max a b)

/-- Pack elements of 4, 8 or 16 bits into bytes (R183). -/
def packBytes (w : Nat) (l : List Nat) : List Byte :=
  if w = 4 then (chunks 2 (l.length / 2) l).map (fun p => BitVec.ofNat 8 (p.getD 0 0 + 16 * p.getD 1 0))
  else l.flatMap (leBytes (w / 8))

/-- Compress a dense step to 2:4 (R184, R191). -/
def compressStep (t : Ty) (spare : Nat) (bs : List Byte) : List Byte :=
  let k := kOf t
  let groups := chunks 4 (8 * k) (packedElems t.width (32 * k) bs)
  let kept := groups.map (fun g => keepTwo (g.map (magRank t spare)))
  packBytes t.width ((groups.zip kept).flatMap (fun (g, p) => [g.getD p.1 0, g.getD p.2 0]))
    ++ packBytes 4 (kept.map (fun p => p.1 + 4 * p.2))

/-- The output bytes of unit `u` of a job; `p` is the place of its token in the pool. -/
def State.unitBytes (s : State) (it : Item) (h : Cohort) (u : Nat) (p : Option Nat) : Rd (List Byte) :=
  let src := it.fld 1 63 0
  match it.op with
  | 0 => s.srcBytes it h (src + 8 * u) 8
  | 1 =>
    let x := it.word2d u
    s.srcBytes it h ((src + x.1 * it.fld 4 31 0 + 8 * x.2) % 2 ^ 64) 8
  | 2 =>
    let wpt := it.tokBytes / 8
    (match p with
     | none => .ok (List.replicate 8 0)
     | some k => s.poolBytes it h (src + k * it.tokBytes + 8 * (u % wpt)) 8)
  | 3 =>
    (match it.widenSpan u p with
     | none => .ok (List.replicate (2 * it.gran) 0)
     | some (i, n) =>
       let a := src + i * it.efmt.width / 8
       let m := (n * it.efmt.width + 7) / 8
       (if it.bt then s.poolBytes it h a m else s.srcBytes it h (a % 2 ^ 64) m).bind
         (fun bs => .ok (s.widenAt it h i n bs)))
  | _ =>
    if it.fld 0 17 16 = 1 then
      (s.srcBytes it h (src + 1024 * u) 1024).bind (fun bs =>
        .ok (compressStep it.efmt (Config.fillSpare (it.id * 2 ^ 16 + u) % 256) bs))
    else s.srcBytes it h (src + 8 * u) 8

/-- Source and destination share a byte of the footprint: every word is read before the first is written (R188). -/
def Item.selfOverlap (it : Item) : Bool :=
  it.fp.any (fun a => !a.write && it.fp.any (fun b => b.write && a.overlaps true b))

/-- Read the next unit of a job, the table entry of its token first when that token has just been reached (R189):
the item as it then stands, and what there is. -/
def State.unitToken (s : State) (it : Item) (h : Cohort) : Item × Rd (Option Nat) :=
  match it.perToken with
  | none => (it, .ok none)
  | some upt =>
    let t := it.fld 3 31 0 + it.sub / upt
    match it.tok.filter (fun x => x.1 == t) with
    | some x => (it, .ok x.2)
    | none => match s.tokenAt it h t with
      | .ok p => ({ it with tok := some (t, p) }, .ok p)
      | r => (it, r)

/-- Read up to `n` units. -/
def State.jobRead (s : State) (core id : Nat) : Nat → State
  | 0 => s
  | n + 1 =>
    match s.item? core id with
    | none => s
    | some it =>
      match s.cohort? it.uid with
      | none => s
      | some h =>
        if !s.itemGoes it || decide (it.units ≤ it.sub) then s
        else match s.unitToken it h with
          | (it, .ok p) =>
            (match s.fillScale it h.ctx (it.unitLines it.sub p) (it.unitLines it.sub p) with
             | (s, .ok _) =>
               (match s.unitBytes it h it.sub p with
                | .ok bs =>
                  (s.putItem { it with sub := it.sub + 1, buf := it.buf ++ bs, cache := [] }).jobRead core id n
                | r => s.itemStop it h.ctx r)
             | (s, r) => s.itemStop it h.ctx r)
          | (it, r) => s.itemStop it h.ctx r

/-- Write the next word of a job: to a ring slot (R182), scratchpad, the weight buffer (R192) or global
memory. -/
def State.jobWrite1 (s : State) (it : Item) (h : Cohort) : State :=
  let n := min 8 (it.total - it.pos)
  let ready := decide (n ≤ it.buf.length) || decide (it.units ≤ it.sub)
  if !ready || (it.selfOverlap && decide (it.sub < it.units)) || it.tagWait h then s
  else
    let bs := (it.buf ++ List.replicate 8 0).take n
    let it1 := { it with buf := it.buf.drop n, pos := it.pos + n, done := it.pos + n == it.total }
    let v := BitVec.ofNat 64 (leVal bs)
    match it.ring with
    | some r =>
      let size := 1024 * r.slotKib
      let slot := (it.fld 2 13 8 + it.pos / size) % r.count
      let f (h : Cohort) : Cohort :=
        let h1 := h.spWrite (r.base + slot * size + it.pos % size) n v
        if (it.pos + n) % size = 0 then h1.setFull (r.tag + 8 * slot) true else h1
      let key := h.spKey (r.base + slot * size + it.pos % size)
      let s := if (it.pos + n) % 64 = 0 then
          { s with mem := { s.mem with poison := s.mem.poison.filter (fun l => l != key / 64) } } else s
      (s.modCohort h.uid f).putItem it1
    | none =>
      let a := it.dstAt it.pos
      if it.op = 4 then
        let wb := (bs.mapIdx (fun i b => (it.core * wbBytes + a + i, b))).foldl
          (fun m e => SMap.set 0 m e.1 e.2) s.eng.wb
        let owner := SMap.set 0 s.eng.wbOwner (128 * it.core + a / 4096) h.serial
        (({ s with eng := { s.eng with wb := wb, wbOwner := owner } }).lineDone it (it.pos + n) a
          (wbKey it.core a)).putItem it1
      else if it.dstSp then
        ((s.modCohort h.uid (fun h => h.spWrite a n v)).lineDone it (it.pos + n) a (h.spKey a)).putItem it1
      else s.itemStore it it1 h.ctx (BitVec.ofNat 64 a) bs

/-- Write up to `n` words. -/
def State.jobWrite (s : State) (core id : Nat) : Nat → State
  | 0 => s
  | n + 1 =>
    match s.item? core id with
    | none => s
    | some it =>
      match s.cohort? it.uid with
      | none => s
      | some h => if s.itemGoes it then (s.jobWrite1 it h).jobWrite core id n else s

/-- A part of a job (R120, R188): an even `n` reads n / 2 + 1 units, an odd one writes n / 2 + 1 words. A
job without bytes is done at once. -/
def State.jobPart (s : State) (core id op n : Nat) : State :=
  match s.item? core id with
  | none => s
  | some it =>
    if it.task || it.op != op || !s.itemGoes it then s
    else if it.total = 0 then s.putItem { it with done := true }
    else if n % 2 = 0 then s.jobRead core id (n / 2 + 1)
    else (s.jobWrite core id (n / 2 + 1)).ranOn it

/-- JOB_COPY (R188). -/
def execJobCopy (core id n : Nat) (s : State) : Host.Outcome State Fault Refusal := .next (s.jobPart core id 0 n)

/-- JOB_COPY2D (R188). -/
def execJobCopy2d (core id n : Nat) (s : State) : Host.Outcome State Fault Refusal :=
  .next (s.jobPart core id 1 n)

/-- JOB_GATHERBT (R189). -/
def execJobGatherbt (core id n : Nat) (s : State) : Host.Outcome State Fault Refusal :=
  .next (s.jobPart core id 2 n)

/-- JOB_WIDEN (R190). -/
def execJobWiden (core id n : Nat) (s : State) : Host.Outcome State Fault Refusal :=
  .next (s.jobPart core id 3 n)

/-- JOB_FILLWB (R191). -/
def execJobFillwb (core id n : Nat) (s : State) : Host.Outcome State Fault Refusal :=
  .next (s.jobPart core id 4 n)

/-! ## Retirement and failure (R187, R193) -/

/-- ITEM_RETIRE (R187): the completion word, then the decrement. -/
def execItemRetire (core id : Nat) (s : State) : Host.Outcome State Fault Refusal :=
  .next (match s.item? core id with
    | none => s
    | some it =>
      if !it.done || it.fail.isSome || it.remote.isSome then s
      else
        let s1 := s.dropItem it
        let ring := it.task && it.op == 3
        let s2 := if !ring && it.fld 6 20 20 = 1 then
            s1.completeWord it.uid (it.fld 6 19 0) (BitVec.ofNat 64 (it.fld 6 63 24)) else s1
        let s3 := if !ring && it.fld 7 8 8 = 1 then
            (match s2.cohort? it.uid with
             | some h => (match s2.inst? h.inst with
               | some a => if a.l.serial = h.serial then s2.decrement h.inst (it.fld 7 7 0) 1 else s2
               | none => s2)
             | none => s2)
          else s2
        s3.afterItem it.uid)

/-- ITEM_FAILURE (R193): the item ends and its crew takes the cause at its next issue; for a crew that has
exited the cohort aborts without a handler. -/
def execItemFailure (core id : Nat) (s : State) : Host.Outcome State Fault Refusal :=
  .next (match s.item? core id with
    | none => s
    | some it =>
      match it.fail with
      | none => s
      | some (cause, addr, xdev) =>
        let s1 := s.dropItem it
        match s1.cohort? it.uid, s1.crew? it.uid it.idx with
        | some h, some c =>
          let aborting : Bool := match h.halt with
            | some k => k.abort
            | none => false
          let t : Trap := { cause := cause, pc := it.pc, addr := addr, resume := c.r.pc, xdev := xdev, late := true }
          if h.ev = .dead ∨ aborting && c.g.exited then s1.afterItem it.uid
          else if c.g.exited then
            (s1.putCrew (c.setFault t)).startAbort it.uid { crew := c.idx, trap := t, abort := true }
          else s1.putCrew { c with pend := c.pend ++ [t] }
        | _, _ => s1.afterItem it.uid)

end Sys2Proof.Machine
end

