-- ==== Sys2Proof/Machine/MemoryEvents.lean ====
section
/-! DEFINITION. Events of memory and translation: returns and performances (R106 to R112), outcomes,
answers, shootdowns, copies (R129 to R141), requests, responses and timeouts between devices (R199 to
R201, R360), SHINV over the domain (R148, R149), the host's address translation (R208), errors (R244). -/

namespace Sys2Proof.Machine

/-! ## Faults that come after their instruction -/

/-- Two ranges of addresses share a byte. -/
def shares (a : Word) (n : Nat) (b : Word) (m : Nat) : Bool :=
  decide (a.toNat < b.toNat + m) && decide (b.toNat < a.toNat + n)

/-- A trap to be taken at the crew's next issue (R201, R210): lanes of one instruction that fail for one
cause make one trap, which reports the lowest lane's address, or the lowest address of a timeout. An
exited crew takes none. Two executions of one instruction, in a loop, whose lanes fail before the trap is taken make one
trap, as lanes of one PC: the model's choice (log entry 110). -/
def Crew.pendLate (c : Crew) (low : Bool) (t : Trap) : Crew :=
  let t := { t with late := true }
  if c.g.exited then c
  else match c.pend.find? (fun p => p.late && p.pc == t.pc && p.cause == t.cause && p.lanes != 0) with
    | none => { c with pend := c.pend ++ [t] }
    | some p =>
      let first (m : Mask) : Nat := (activeLanes m).headD 32
      let addr := if low then (if t.addr.toNat < p.addr.toNat then t.addr else p.addr)
        else if first t.lanes < first p.lanes then t.addr else p.addr
      let q := { p with lanes := p.lanes ||| t.lanes, lcause := p.lcause ||| t.lcause, addr := addr }
      { c with pend := c.pend.map (fun x => if x = p then q else x) }

/-- One lane of an instruction of crew (u, i) at `pc`, of access `id`, fails after it went out: while the crew stands
at the unit, be it behind a handler that it will return from to the unit (R217), the lane joins its faults (R212),
else it is a trap at the next issue, as always for an access of which no number is given. -/
def State.laneLate (s : State) (u i : Nat) (pc : Word) (id : Option Nat) (low : Bool) (f : LaneFault) : State :=
  s.modCrew u i (fun c =>
    if id.any c.h.w.own.contains then { c with h := { c.h with w := { c.h.w with lf := c.h.w.lf ++ [f] } } }
    else if id.any c.w.own.contains then { c with w := { c.w with lf := c.w.lf ++ [f] } }
    else c.pendLate low
      { cause := f.cause, pc := pc, lanes := maskOf [f.lane], addr := f.addr, lcause := flcause [f]
        resume := c.r.pc, xdev := if f.cause = 6 then f.xdev.getD 0 else 0 })

/-- A wait of a crew of device `dev` without a page whose outcome is known: a page wait goes on to name the first page
of this device that is left (R224). -/
def WaitSt.pageDone (w : WaitSt) (dev page : Nat) : WaitSt :=
  if w.pages.contains page then
    let ps := w.pages.filter (fun p => p != page)
    { w with
      pages := ps
      kind := if ps.isEmpty then .none
        else match w.kind, ps.find? (fun p => pageDev p == dev) with
          | .page _, some p => .page p
          | .page _, none => .remote
          | k, _ => k }
  else w

/-- The outcome of a page is known; the crew, or the unit to which its handler returns, need not wait for it any
longer. -/
def Crew.pageDone (c : Crew) (dev page : Nat) : Crew :=
  { c with w := c.w.pageDone dev page, h := { c.h with w := c.h.w.pageDone dev page } }

/-- The crew stands at the unit of an access, or will return to it from a handler. -/
def State.standsAt (s : State) (u i id : Nat) : Bool :=
  (s.crew? u i).any (fun c => c.w.own.contains id || c.h.w.own.contains id)

/-- Rank of a fault among those of a unit (R146): the owner key for a sharded access. -/
def rankOf (tensor : Option Nat) (va : Word) : Nat := if tensor.isSome then va.toNat / 2 ^ 52 + 1 else 1

/-! ## Loads (R108, R109, R112) -/

/-- A part is done: it leaves its load, which ends with its last part; an exited cohort that waited for it may retire
(R116). -/
def State.partGone (s : State) (l : Load) (p : Part) : State :=
  let ps := l.parts.filter (fun q => q != p)
  let s := { s with mem := { s.mem with
      loads := if ps.isEmpty then s.mem.loads.filter (fun (x : Load) => x.id != l.id)
        else s.mem.loads.map (fun (x : Load) => if x.id == l.id then { x with parts := x.parts.filter (fun q => q != p) } else x)
      remote := s.mem.remote.filter (fun r => p.remote != some r.rid) } }
  if ps.isEmpty then s.tryRetire l.uid else s

/-- The load as it stands now. -/
def State.load? (s : State) (id : Nat) : Option Load := s.mem.loads.find? (fun l => l.id == id)

/-- A part's value arrives. -/
def State.partValue (s : State) (l : Load) (p : Part) (v : Word) : State :=
  (s.modCrew l.uid l.idx (fun c => c.deliver p.dst (lowBytes p.n v))).partGone ((s.load? l.id).getD l) p

/-- A part fails. -/
def State.partFault (s : State) (l : Load) (p : Part) (cause : Nat) (xdev : Option Nat) (low : Bool) : State :=
  (s.laneLate l.uid l.idx l.pc (some l.id) low
    { lane := p.lane, cause := cause, addr := p.va, rank := rankOf l.tensor p.va, xdev := xdev }).partGone
      ((s.load? l.id).getD l) p

/-- What the core's L1 shows of bytes: the stores of the cohort performed there up to `upto`, over the
home (R112). -/
def State.l1View (s : State) (uid : Nat) (va : Word) (key n upto : Nat) : Word :=
  let sts := sortBy (fun (a b : Store) => decide (a.l1.getD 0 ≤ b.l1.getD 0))
    (s.mem.stores.filter (fun e => e.uid == uid && (match e.l1 with
      | some t => decide (t ≤ upto)
      | none => false)))
  BitVec.ofNat 64 (leVal ((List.range n).map (fun i =>
    let a := va.toNat + i
    sts.foldl (fun b e =>
      if e.va.toNat ≤ a ∧ a < e.va.toNat + e.n then
        BitVec.ofNat 8 (e.data.toNat / 256 ^ (a - e.va.toNat)) else b) (s.byteAt (key + i)))))

/-- The earlier mapping of a page that was in force at instant `t`: of those listed, which go from the latest on,
the last that ended no earlier (R131). -/
def State.oldFrame (s : State) (ctxn page t : Nat) : Option (Nat × Nat × Nat × Nat) :=
  (s.mmu.old.filter (fun e => e.1 == ctxn && e.2.1 == page && decide (t ≤ e.2.2.2))).getLast?

/-- The instant, store or old frame from which a part reads: code 4 t for the home at instant t, 4 id + 1
for the L1 up to store id, 4 t + 2 for the old frame of a page that was shot down, at t (R131). -/
def State.partRead (s : State) (l : Load) (h : Cohort) (p : Part) (code : Nat) : Word :=
  let t := code / 4
  if code % 4 = 0 then s.readWas t p.key p.n
  else if code % 4 = 1 then
    s.l1View l.uid p.va p.key p.n (((s.mem.stores.find? (fun e => e.id == t)).bind (·.l1)).getD 0)
  else match s.oldFrame h.ctx (vaPage p.va) t with
    | some e => s.readWas t (e.2.2.1 + p.va.toNat % 2 ^ 16) p.n
    | none => 0

/-- The memory model allows that read (R108, R109, R112, R131). -/
def State.readAllowed (s : State) (c : Crew) (l : Load) (h : Cohort) (p : Part) (code : Nat) : Bool :=
  let t := code / 4
  let own := s.mem.stores.filter (fun e =>
    e.uid == l.uid && e.idx == l.idx && decide (e.id < l.id) && shares e.va e.n p.va p.n)
  let musts := s.mem.stores.filter (fun e => c.x.musts.contains e.id && shares e.va e.n p.va p.n)
  let floors := (List.range p.n).all (fun i => decide (SMap.get 0 c.x.floors (p.va.toNat + i) ≤ t))
  let earlier := s.mem.loads.any (fun (x : Load) => x.uid == l.uid && x.idx == l.idx && decide (x.id < l.id)
    && x.parts.any (fun q => shares q.va q.n p.va p.n))
  !earlier && (match code % 4 with
    | 0 => decide (l.bound ≤ t) && decide (t ≤ s.fresh.stamp) && floors && own.isEmpty && musts.isEmpty
    | 1 =>
      (match s.mem.stores.find? (fun e => e.id == t) with
       | some e =>
         let seen (x : Store) : Bool := match x.l1, e.l1 with
           | some a, some b => decide (a ≤ b)
           | _, _ => false
         !h.sh.span && e.uid == l.uid && e.l1.isSome && shares e.va e.n p.va p.n
           && own.all seen && musts.all seen
       | none => false)
    | 2 =>
      (match s.oldFrame h.ctx (vaPage p.va) t with
       | some _ => decide (l.bound ≤ t) && floors && own.isEmpty && musts.isEmpty
       | none => false)
    | _ => false)

/-- What the crew has seen of a part bounds its later loads of the location (R108): a read of the home at an
instant, or the stores that L1 showed, and the home as it stands beneath them. -/
def State.sawPart (s : State) (p : Part) (code : Nat) (c : Crew) : Crew :=
  let upto := ((s.mem.stores.find? (fun e => e.id == code / 4)).bind (·.l1)).getD 0
  let shown := (s.mem.stores.filter (fun e => e.uid == c.uid && shares e.va e.n p.va p.n
    && e.l1.any (fun t => decide (t ≤ upto)))).map (·.id)
  let t := if code % 4 = 1 then s.fresh.stamp else code / 4
  { c with x := { c.x with
    musts := if code % 4 = 1 then c.x.musts ++ shown.filter (fun i => !c.x.musts.contains i) else c.x.musts
    floors := (List.range p.n).foldl (fun m i =>
      SMap.set 0 m (p.va.toNat + i) (max t (SMap.get 0 m (p.va.toNat + i)))) c.x.floors } }

/-- Return the parts of a load, each with its code. -/
def State.returnParts (s : State) (id : Nat) (h : Cohort) : List (Part × Nat) → State
  | [] => s
  | (p, code) :: rest =>
    match s.load? id with
    | none => s
    | some l =>
      ((s.modCrew l.uid l.idx (s.sawPart p code)).partValue l p (s.partRead l h p code)).returnParts id h rest

/-- LOAD_RETURN (R109): the parts of the load whose homes lie here or in host memory return, each from an instant
that the memory model allows; lanes that read one location, whose home word is one (R125), return one value (R107).
Whether the data was poisoned has been seen at the issue (log entry 78). -/
def execLoadReturn (id : Nat) (stamps : List Nat) (s : State) : Host.Outcome State Fault Refusal :=
  .next (match s.load? id with
    | none => s
    | some l =>
      match s.crew? l.uid l.idx, s.cohort? l.uid with
      | some c, some h =>
        let ps := l.parts.filter (fun p => p.remote.isNone || p.key / 2 ^ 56 == 2)
        let zs := ps.zip stamps
        if ps.length = stamps.length && zs.all (fun z => s.readAllowed c l h z.1 z.2)
            && zs.all (fun z => zs.all (fun y => y.1.key != z.1.key || y.1.n != z.1.n
              || s.partRead l h y.1 y.2 == s.partRead l h z.1 z.2))
        then s.returnParts id h zs else s
      | _, _ => s)

/-! ## Stores (R106 to R108, R112) -/

/-- A store leaves the memory system; an exited cohort that waited for it may retire (R306). -/
def State.storeGone (s : State) (e : Store) : State :=
  ({ s with mem := { s.mem with
      stores := s.mem.stores.filter (fun x => x.id != e.id)
      remote := s.mem.remote.filter (fun r => e.remote != some r.rid) } }).tryRetire e.uid

/-- A store of a sibling that the crew has seen at L1 comes before its own store at the home too (R108), but for one
that this store precedes there. -/
def State.mustBehind (s : State) (e : Store) : Bool :=
  (s.crew? e.uid e.idx).any (fun c => s.mem.stores.any (fun x => x.id != e.id && c.x.musts.contains x.id
    && shares x.va x.n e.va e.n && (match x.l1, e.l1 with
      | some a, some b => decide (a < b)
      | _, _ => true)))

/-- An earlier access of the crew to the location is still on its way (R108), or that of a lower lane of the same
instruction to the home word, by whichever VA (R107, R125). -/
def State.storeBehind (s : State) (e : Store) : Bool :=
  s.mustBehind e || s.mem.stores.any (fun x => x.uid == e.uid && x.idx == e.idx && decide (x.id < e.id)
      && (shares x.va x.n e.va e.n || (x.unit == e.unit && !x.far && decide (x.key < e.key + e.n)
        && decide (e.key < x.key + x.n))))
    || s.mem.loads.any (fun (l : Load) => l.uid == e.uid && l.idx == e.idx && decide (l.id < e.id)
        && l.parts.any (fun p => shares p.va p.n e.va e.n))

/-- A store of the cohort entered its L1 before this one and is not at the home (R112). -/
def State.l1Behind (s : State) (e : Store) : Bool :=
  s.mem.stores.any (fun x => x.id != e.id && x.uid == e.uid && shares x.va x.n e.va e.n
    && (match x.l1, e.l1 with
        | some a, some b => decide (a < b)
        | _, _ => false))

/-- Crews that must see a store see it at the home from now on; its own crew reads nothing earlier
(R108). -/
def State.storeSeen (s : State) (e : Store) : State :=
  let t := s.fresh.stamp
  let raise (c : Crew) : Crew := { c with x := { c.x with
    floors := (List.range e.n).foldl (fun m i => SMap.set 0 m (e.va.toNat + i) t) c.x.floors
    musts := c.x.musts.filter (fun i => i != e.id) } }
  { s with crews := s.crews.map (fun (c : Crew) =>
      if c.uid == e.uid && (c.idx == e.idx || c.x.musts.contains e.id) then raise c else c) }

/-- STORE_PERFORMED: at the L1 of a single-core cohort (R112), or at its home, where it takes its place in
the coherence order (R106); an atomic returns the value before it (R117). Whether the data of an atomic was poisoned has
been seen at the issue (R212; log entry 78). -/
def execStorePerformed (id : Nat) (l1 : Bool) (s : State) : Host.Outcome State Fault Refusal :=
  .next (match s.mem.stores.find? (fun e => e.id == id) with
    | none => s
    | some e =>
      if e.far then s
      else if l1 then
        let single : Bool := match s.cohort? e.uid with
          | some h => !h.sh.span
          | none => false
        let first := !(s.mem.stores.any (fun x => x.uid == e.uid && x.idx == e.idx && decide (x.id < e.id)
          && shares x.va x.n e.va e.n && x.l1.isNone))
        if single && first && e.op.isNone && !e.nt && e.l1.isNone then
          let t := s.fresh.stamp + 1
          { s with
            fresh := { s.fresh with stamp := t }
            mem := { s.mem with stores := s.mem.stores.map (fun (x : Store) => if x.id == id then { x with l1 := some t } else x) } }
        else s
      else if s.storeBehind e || s.l1Behind e then s
      else match e.op with
        | none => ((s.perform e.key (leBytes e.n e.data.toNat)).storeSeen e).storeGone e
        | some op =>
          let old := s.readKey e.key e.n
          let s1 := (s.perform e.key (leBytes e.n (atomNew op e.n old e.data e.swap).toNat)).storeSeen e
          (s1.modCrew e.uid e.idx (fun c => c.deliver e.dst old)).storeGone e)

/-! ## Requests of other devices (R199, R360) -/

/-- Perform the words of a store of `n` bytes in turn (R106, R107). -/
def State.performAll (s : State) (key n : Nat) (ws : List Word) : State :=
  (wordsOf n).foldl (fun s w => s.perform (key + w.2.1) (leBytes w.2.2 (ws.getD w.1 0).toNat)) s

/-- Keep a watch of a word for another device (R360). -/
def State.watchFor (s : State) (src rid key : Nat) : State :=
  let ws := s.fab.watches.filter (fun x => !(x.src == src && x.rid == rid))
  { s with fab := { s.fab with watches := ws ++ [⟨src, rid, key⟩] } }

/-- Serve a request of another device, or its watch, as a request of a local crew is served; one that meets
a page request waits (R132, R137), one for host memory goes on to the host (R124, R207). A request of a context that
is not set, or of another generation, is answered with ACCESS, as an access of this device in a context never set takes
it: the model's choice (log entry 100). -/
def State.serve (s : State) (r : Served) : State :=
  let a : Acc := match r.k with
    | .load _ => .load
    | .store _ _ => .store
    | .atomic _ _ _ _ => .atomic
  let fail (c : Nat) : State := s.send (.answer r.src r.rid (BitVec.ofNat 64 c) true)
  let hold : State :=
    let s := s.devAsk r.ctx r.va a
    { s with mmu := { s.mmu with served := s.mmu.served ++ [r] } }
  match s.route r.va with
  | .bad | .fenced _ | .remote _ => fail 4
  | .own _ =>
    if s.ctx? r.ctx = none ∨ s.genOf r.ctx ≠ r.gen then fail 4
    else match s.xlate r.ctx r.va a false with
      | none => hold
      | some (.req _, _) => hold
      | some (.fault f, m) => (if m then s.countMalformed (pageDie (vaPage r.va)) else s).send
          (.answer r.src r.rid (BitVec.ofNat 64 f) true)
      | some (.home k, _) =>
        let key := k + r.va.toNat % 2 ^ 16
        if key / 2 ^ 56 = 2 then
          let n := match r.k with
            | .load n => n
            | .store n _ => n
            | .atomic _ n _ _ => n
          (s.newHost r.ctx key (.served r.src r.rid r.ctx r.k r.watch) r.va n r.k).1
        else match r.k with
        | .load n =>
          if s.poisoned key n then fail 15
          else
            let s := (wordsOf n).foldl (fun s w => s.send (.answer r.src r.rid (s.readKey (key + w.2.1) w.2.2) false)) s
            if r.watch then s.watchFor r.src r.rid key else s
        | .store n v => (s.performAll key n v).send (.answer r.src r.rid 0 false)
        | .atomic op n x y =>
          if s.poisoned key n then fail 15
          else
            let old := s.readKey key n
            (s.perform key (leBytes n (atomNew op n old x y).toNat)).send (.answer r.src r.rid old false)

/-- REMOTE_REQUEST (R199). -/
def execRemoteRequest (src rid ctx gen : Nat) (va : Word) (k : ReqKind) (s : State) :
    Host.Outcome State Fault Refusal := .next (s.serve ⟨src, rid, ctx, gen, va, k, false⟩)

/-- WAITA_WATCH (R360): the answer goes out at once, and again after each store performed at the word. -/
def execWaitaWatch (src rid ctx gen : Nat) (va : Word) (s : State) : Host.Outcome State Fault Refusal :=
  .next (s.serve ⟨src, rid, ctx, gen, va, .load 8, true⟩)

/-- Serve again the requests that a page held. -/
def State.reserve (s : State) (ctx page : Nat) : State :=
  let mine (r : Served) : Bool := r.ctx == ctx && vaPage r.va == page
  let l := s.mmu.served.filter mine
  let s := { s with mmu := { s.mmu with served := s.mmu.served.filter (fun (r : Served) => !mine r) } }
  l.foldl State.serve s

/-! ## Translation outcomes and page answers (R129 to R138) -/

/-- TRANSLATION_OUTCOME (R129): the owning die answers what a crew waits to know of a page, from its TLB or
by a walk, and the filter is filled; a page request joins the merge table there (R132). For a page of another device,
its owner has found that the access can be served: what its data holds is known with it (R212; log entry 78). -/
def execTranslationOutcome (u c page : Nat) (rewalk : Bool) (s : State) : Host.Outcome State Fault Refusal :=
  .next (match s.crew? u c, s.cohort? u with
    | some cr, some h =>
      if pageDev page != s.devid then s.putCrew (cr.pageDone s.devid page)
      else
        let asks := cr.x.xwait.filter (fun e => e.1 == page)
        asks.foldl (fun s e =>
          match s.xlate h.ctx (pageVa page) e.2 rewalk with
          | none => s.askAts h.ctx page
          | some (x, m) =>
            let s := if m then s.countMalformed (pageDie page) else s
            let s := match x with
              | .home _ => (s.fillTlb h.ctx (pageVa page)).fillFilter (h.coreOf c) h.ctx page
              | .req k => s.joinMerge h.ctx page k cr.r.pc
              | .fault _ => s
            s.modCrew u c (fun d => { d with x := { d.x with
              xwait := d.x.xwait.filter (fun y => y != e)
              xout := (page, e.2, x) :: d.x.xout } })) s
    | _, _ => s)

/-- The launch that an entry belongs to, if it is live. -/
def State.instOf (s : State) (serial : Nat) : Option Inst := s.insts.find? (fun a => a.l.serial == serial)

/-- A store that failed after its instruction: the number of the instruction, the launch, node, cohort and crew, the
PC, the lanes on the page and their first address, the cause and the device. -/
structure Failed where
  unit : Nat
  serial : Nat
  node : Nat
  uid : Nat
  idx : Nat
  pc : Word
  lanes : List Nat
  va : Word
  cause : Nat
  xdev : Nat := 0

/-- Report a store that failed after its instruction at the crew's next ordering point (R137): the earliest
in program order. A crew that is no longer there cannot report: the instance halts. An eviction save that waits is
abandoned and the trap taken at once. -/
def State.storeFail (s : State) (f : Failed) : State :=
  match s.crew? f.uid f.idx, s.cohort? f.uid with
  | some c, some h =>
    if c.g.exited then
      (match s.instOf f.serial with
       | some a => s.haltWith a.slot (s.bareFault a.slot f.node f.cause 0 f.pc f.va f.xdev)
       | none => s)
    else
      let t : Trap := { cause := f.cause, pc := f.pc, lanes := maskOf f.lanes, addr := f.va
                        lcause := flcause (f.lanes.map (fun l => { lane := l, cause := f.cause, addr := f.va }))
                        resume := c.r.pc, xdev := f.xdev }
      let c1 := c.failing f.unit t
      if h.ev = .saving then
        s.takeTrap { c with fail := none } h { (c1.fail.elim t (·.2)) with resume := c.r.pc }
      else s.putCrew c1
  | _, _ =>
    match s.instOf f.serial with
    | some a => s.haltWith a.slot (s.bareFault a.slot f.node f.cause 0 f.pc f.va f.xdev)
    | none => s

/-- The failure of a side-log entry. -/
def LogEntry.failed (e : LogEntry) (cause : Nat) : Failed :=
  { unit := e.id, serial := e.serial, node := e.node, uid := e.uid, idx := e.idx, pc := e.pc
    lanes := e.lanes.map (·.lane), va := (e.lanes.head?.map (·.va)).getD 0, cause := cause }

/-- Report the failure of a side-log entry; an aborted cohort takes no trap any longer. -/
def State.logFail (s : State) (e : LogEntry) (cause : Nat) : State :=
  if e.aborted then s else s.storeFail (e.failed cause)

/-- One lane of a side-log entry becomes a store on its way to the home of its page (R136). -/
def State.replayLane (s : State) (e : LogEntry) (home : Nat) (l : LogLane) : State :=
  let id := s.fresh.id
  let key := home + l.va.toNat % 2 ^ 16
  let kind : ReqKind := match l.op with
    | none => .store l.n [l.data]
    | some o => .atomic o l.n l.data l.swap
  let st : Store :=
    { id := id, serial := e.serial, uid := e.uid, idx := e.idx, pc := e.pc, lane := l.lane, va := l.va
      n := l.n, key := key, data := l.data, op := l.op, swap := l.swap, nt := e.nt, xto := e.xto
      tensor := e.tensor, node := e.node, unit := e.id, aborted := e.aborted, res := e.res }
  let s := s.bumpId
  let (s, st) : State × Store := if key / 2 ^ 56 = 2 then
      (let (s, rid) := s.newHost e.ctx key (.store id) l.va l.n kind
       (s, { st with remote := some rid }))
    else (s, st)
  { s with mem := { s.mem with stores := s.mem.stores ++ [st] } }

/-- Replay the side-log entries of a page in program order (R136): each lane becomes a store on its way.
An entry that meets a request again waits on; one that meets ACCESS or PROT, and the lanes of an atomic that meet
poisoned data, are reported at the crew's next ordering point, as R137 says of a failed page: the model's choice (log
entry 101). -/
def State.replay (s : State) (ctx page : Nat) : State :=
  let mine := s.mem.log.filter (fun (e : LogEntry) => e.page == page && e.ctx == ctx)
  mine.foldl (fun s e =>
    let acc : Acc := if e.lanes.any (fun l => l.op.isSome) then .atomic else .store
    let drop (s : State) : State :=
      { s with mem := { s.mem with log := s.mem.log.filter (fun (x : LogEntry) => x.id != e.id) } }
    match s.xlate ctx (pageVa page) acc false with
    | none => s.askAts ctx page
    | some (.req k, _) => s.joinMerge ctx page k e.pc
    | some (.fault f, m) => (drop (if m then s.countMalformed (pageDie page) else s)).logFail e f
    | some (.home k, _) =>
      let ecc (l : LogLane) : Bool := l.op.isSome && s.poisoned (k + l.va.toNat % 2 ^ 16) l.n
      let s1 := (e.lanes.filter (fun l => !ecc l)).foldl (fun s l => s.replayLane e k l) (drop s)
      match e.lanes.filter ecc with
      | [] => s1
      | bad => s1.logFail { e with lanes := bad } 15) s

/-- The fault records whose ring word waited for a page are written again (R369). -/
def State.flushFaults (s : State) : State :=
  let q := s.host.faultQ
  q.foldl (fun s e => s.writeFault e.1 e.2) { s with host := { s.host with faultQ := [] } }

/-- A crew's cohort runs in a context. -/
def State.inCtx (s : State) (ctx u : Nat) : Bool := (s.cohort? u).any (fun h => h.ctx == ctx)

/-- What a crew knows of a page whose request has been answered: it asks again, or after a failed answer it knows of
the accesses that were to wait for the page that they fail (R137). -/
def freedOut (page : Nat) (fail : Bool) (out : List (Nat × Acc × Xlat)) : List (Nat × Acc × Xlat) :=
  out.filterMap (fun e => match e.2.2 with
    | .req _ => if e.1 != page then some e else if fail then some (e.1, e.2.1, .fault 6) else none
    | _ => some e)

/-- The crews of a context that wait for a page, or were about to, wait no longer; one of an evicted cohort that was
saved in that wait may resume (R224). -/
def State.freeCrews (s : State) (ctx page : Nat) (fail : Bool) : State :=
  { s with crews := s.crews.map (fun (c : Crew) =>
      if s.inCtx ctx c.uid then
        (let c1 := c.pageDone s.devid page
         let mine : List (Nat × Acc × Xlat) := if fail && c.w.pages.contains page then
           [(page, .load, .fault 6), (page, .store, .fault 6), (page, .atomic, .fault 6)] else []
         { c1 with
           w := { c1.w with wake := c1.w.wake || c.w.kind == .page page }
           x := { c1.x with xout := mine ++ freedOut page fail c1.x.xout } })
      else c) }

/-- The items of a context that wait for a page look again. -/
def State.freeItems (s : State) (ctx page : Nat) (f : Item → Word → Item) : State :=
  { s with eng := { s.eng with items := s.eng.items.map (fun (i : Item) =>
      match i.wait with
      | some va => if s.inCtx ctx i.uid && vaPage va == page then f { i with wait := none } va else i
      | none => i) } }

/-- A queue word (context, VA) lies on a page. -/
def onPage (ctx page : Nat) (e : Nat × Word) : Bool := e.1 == ctx && vaPage e.2 == page

/-- A page's request has been answered with success (R134 to R136): crews reissue, items go on, the side
log replays, requests of other devices are served. -/
def State.pageGood (s : State) (ctx page : Nat) : State :=
  let s := (s.freeCrews ctx page false).freeItems ctx page (fun i _ => i)
  let s := { s with mmu := { s.mmu with asked := s.mmu.asked.filter (fun e => !onPage ctx page (e.1, e.2.1)) } }
  ((s.replay ctx page).reserve ctx page).flushFaults

/-- Of failed side-log entries, the earliest of each crew: the one that is reported (R137). -/
def firstFailed : List LogEntry → List LogEntry
  | [] => []
  | e :: r => e :: (firstFailed r).filter (fun x => !(x.uid == e.uid && x.idx == e.idx))

/-- The fault records that wait for a page whose request has failed are dropped and counted (R369): no word of their ring
there is left to be told. -/
def State.dropFaults (s : State) (ctx page : Nat) : State :=
  let at_ (e : Word × List Word) : Nat × Word := (s.qsbCtx e.1, s.faultVa e.1)
  let gone := s.host.faultQ.filter (fun e => onPage ctx page (at_ e))
  let s1 := { s with
    host := { s.host with faultQ := s.host.faultQ.filter (fun e => !onPage ctx page (at_ e)) } }
  gone.foldl (fun s e => s.dropFault.imageDone e.1 (e.2.getD 7 0)) s1

/-- A page's request has failed (R137, R193, R369). -/
def State.pageBad (s : State) (ctx page : Nat) : State :=
  let s := (s.freeCrews ctx page true).freeItems ctx page
    (fun i va => { i with fail := some (6, va, 0), done := true })
  let s := { s with mmu := { s.mmu with
      asked := s.mmu.asked.filter (fun e => !onPage ctx page (e.1, e.2.1))
      failed := (s.mmu.asked.filter (fun (e : Nat × Word × Asker) => onPage ctx page (e.1, e.2.1))) ++ s.mmu.failed } }
  let mine (e : LogEntry) : Bool := e.page == page && e.ctx == ctx
  let entries := s.mem.log.filter mine
  let s := { s with mem := { s.mem with log := s.mem.log.filter (fun e => !mine e) } }
  let s := (firstFailed entries).foldl (fun s e => s.logFail e 6) s
  let held := s.mmu.served.filter (fun (r : Served) => r.ctx == ctx && vaPage r.va == page)
  let s := { s with mmu := { s.mmu with
    served := s.mmu.served.filter (fun (r : Served) => !(r.ctx == ctx && vaPage r.va == page)) } }
  ((held.foldl (fun s r => s.send (.answer r.src r.rid 6 true)) s).dropFaults ctx page).flushFaults

/-- A page answer that matches no entry is counted (R138). -/
def State.countLateAnswer (s : State) (die : Nat) : State :=
  { s with mmu := { s.mmu with late := s.mmu.late.set die (s.mmu.late.getD die 0 + 1) } }

/-- Answer a merge-table entry; an answer that matches none is late (R133, R138). -/
def State.answerPage (s : State) (die page ctx gen : Nat) (fail : Bool) : State :=
  let mine (e : Merge) : Bool := e.open_ && e.die == die && e.ctx == ctx && e.gen == gen && e.page == page
  if s.mmu.merge.any mine then
    let s := { s with mmu := { s.mmu with merge := s.mmu.merge.filter (fun e => !mine e) } }
    let s := s.advanceAll die
    if fail then s.pageBad ctx page else s.pageGood ctx page
  else s.countLateAnswer die

/-- PAGE_ANSWER (R133). -/
def execPageAnswer (die page ctx gen : Nat) (fail : Bool) (s : State) : Host.Outcome State Fault Refusal :=
  .next (s.answerPage die page ctx gen fail)

/-- A context is killed (R138): the generation advances, and the entries of the old one are freed with their
waiters: side-log entries and requests of other devices end, crews and items make their accesses anew, in the new
generation, and so do the fault records that wait for their ring (R238). -/
def State.killCtx (s : State) (ctx : Nat) : State :=
  match s.ctx? ctx with
    | none => s
    | some c =>
      let c1 := { c with gen := (c.gen + 1) % 2 ^ 16 }
      let pages := ((s.mmu.merge.filter (fun e => e.ctx == ctx)).map (·.page)).eraseDups
      let s := { s with
        mmu := { s.mmu with
          ctxs := s.mmu.ctxs.map (fun (x : Ctx) => if x.n == ctx then c1 else x)
          merge := s.mmu.merge.filter (fun e => e.ctx != ctx)
          asked := s.mmu.asked.filter (fun e => e.1 != ctx)
          failed := s.mmu.failed.filter (fun e => e.1 != ctx)
          cows := s.mmu.cows.filter (fun e => e.ctx != ctx)
          served := s.mmu.served.filter (fun (r : Served) => !(r.ctx == ctx && pages.contains (vaPage r.va))) }
        mem := { s.mem with log := s.mem.log.filter (fun (e : LogEntry) => !(e.ctx == ctx && pages.contains e.page)) } }
      let s := pages.foldl (fun s p => (s.freeCrews ctx p false).freeItems ctx p (fun i _ => i)) s
      ((s.advanceAll 0).advanceAll 1).flushFaults

/-- CONTEXT_KILL (R138). -/
def execContextKill (ctx : Nat) (s : State) : Host.Outcome State Fault Refusal := .next (s.killCtx ctx)

/-! ## Shootdowns and copies (R131, R140) -/

/-- The context of an asker whose request to host memory the events of loads and stores do not end (R209). -/
def State.askerCtx (s : State) : Asker → Option Nat
  | .item core id _ _ => ((s.item? core id).bind (fun i => s.cohort? i.uid)).map (·.ctx)
  | .fetch u _ => (s.cohort? u).map (·.ctx)
  | .marl u _ => (s.cohort? u).map (·.ctx)
  | .lp u => (s.cohort? u).map (·.ctx)
  | .queue q => some (s.qsbCtx q)
  | .completion n => (s.instOf n).map (·.l.ctx)
  | .grid n _ _ => (s.instOf n).map (·.l.ctx)
  | .waita u _ _ => (s.cohort? u).map (·.ctx)
  | .served _ _ ctx _ _ => some ctx
  | .part _ _ _ | .store _ => none

/-- An access translated with the page's old entry is not yet performed (R131, R208). -/
def State.pageBusy (s : State) (ctx page : Nat) : Bool :=
  let inCtx (u serial : Nat) : Bool := match s.cohort? u, s.instOf serial with
    | some h, _ => h.ctx == ctx
    | none, some a => a.l.ctx == ctx
    | none, none => true
  s.mem.loads.any (fun (l : Load) => inCtx l.uid 0 && l.parts.any (fun p => vaPage p.va == page))
    || s.mem.stores.any (fun e => inCtx e.uid e.serial && vaPage e.va == page)
    || s.mem.remote.any (fun r => r.key.isSome && r.ans.isNone && vaPage r.va == page && s.askerCtx r.who == some ctx)

/-- The effect of a shootdown (R131): the TLB and every access filter drop the page; outcomes that crews
hold for it are asked again; its old frame may still show in L1. -/
def State.shoot (s : State) (ctx page : Nat) : State :=
  let mine (e : TlbEntry) : Bool := e.ctx == ctx && e.page == page
  { s with
    crews := s.crews.map (fun (c : Crew) => if s.inCtx ctx c.uid then
      { c with x := { c.x with xout := c.x.xout.filter (fun e => e.1 != page) } } else c)
    mmu := { s.mmu with
      tlb := s.mmu.tlb.filter (fun e => !mine e)
      filter := s.mmu.filter.filter (fun e => !(e.ctx == ctx && e.page == page))
      old := (s.mmu.tlb.filter mine).flatMap s.oldMap ++ s.mmu.old } }

/-- SHOOTDOWN (R131): completes when every access translated with the old entry has been performed. -/
def execShootdown (die ctx page : Nat) (s : State) : Host.Outcome State Fault Refusal :=
  .next (if pageDie page != die || s.pageBusy ctx page then s else s.shoot ctx page)

/-- The address of the level 4 entry of an offset (R126), found as the walk finds it. -/
def pteAddr (s : State) (sp off : Nat) : List (Nat × Nat × Nat) → Nat → Nat
  | [], table => table
  | [(_, sh, bits)], table => table + 8 * (off / 2 ^ sh % 2 ^ bits)
  | (_, sh, bits) :: rest, table =>
    pteAddr s sp off rest (bitsOf (s.readKey (sp * 2 ^ 56 + table + 8 * (off / 2 ^ sh % 2 ^ bits)) 8).toNat 55 8 * 256)

/-- Copy a 64 KiB frame at an instant of its own (R140). -/
def State.copyFrame (s : State) (from_ to_ : Nat) : State :=
  let t := s.fresh.stamp + 1
  let inside (lo k : Nat) : Bool := decide (lo ≤ k) && decide (k < lo + 65536)
  let src := (s.mem.mem.filter (fun e => inside from_ e.1)).map (fun e => (e.1 - from_ + to_, e.2))
  let old := s.mem.mem.filter (fun e => inside to_ e.1)
  let keys := (src.map (·.1) ++ old.map (·.1)).eraseDups
  let base := s.mem.mem.filter (fun e => !inside to_ e.1)
  let lines := (s.mem.poison.filter (fun l => inside from_ (64 * l))).map (fun l => l + to_ / 64 - from_ / 64)
  { s with
    fresh := { s.fresh with stamp := t }
    mem := { s.mem with
      mem := src.foldl (fun m e => SMap.set Memory.absent m e.1 e.2) base
      hist := keys.map (fun k => (t, k, s.byteAt k)) ++ s.mem.hist
      poison := lines ++ s.mem.poison.filter (fun l => !inside to_ (64 * l)) } }

/-- COW_COPY_DONE (R140): the copy, the new PTE, the shootdown, the frames posted to the memory-management
core, and the answer. -/
def execCowCopyDone (die ctx page : Nat) (s : State) : Host.Outcome State Fault Refusal :=
  .next (match s.mmu.cows.find? (fun w => w.die == die && w.ctx == ctx && w.page == page), s.ctx? ctx with
    | some w, some c =>
      if s.pageBusy ctx page then s
      else
        let d := vaDie (pageVa page)
        let sp := tableSpace d
        let a := pteAddr s sp (vaOff (pageVa page)) levels (c.root d).toNat
        let s := s.copyFrame (d * 2 ^ 56 + w.old) (d * 2 ^ 56 + w.new_)
        let pte := (s.readKey (sp * 2 ^ 56 + a) 8).toNat
        let new_ := bitsOf pte 63 56 * 2 ^ 56 + w.new_ / 2 ^ 16 * 2 ^ 16 + bitsOf pte 15 8 * 2 ^ 8
          + bitsOf pte 6 3 * 2 ^ 3 + 4 + bitsOf pte 1 0
        let s := (s.perform (sp * 2 ^ 56 + a) (leBytes 8 new_)).shoot ctx page
        let s := s.send (.frames ctx w.old w.new_)
        let s := { s with mmu := { s.mmu with cows := s.mmu.cows.filter (fun x => x != w) } }
        s.answerPage die page ctx c.gen false
    | _, _ => s)

/-! ## Responses and timeouts (R199 to R201, R360) -/

/-- What a response for a store or atomic of this device comes to: it counts as performed, or its lane has failed. -/
def State.storeAnswered (s : State) (e : Store) (v : Word) (fail : Bool) (dev : Nat) : State :=
  let cause := failCause v
  let f : LaneFault := { lane := e.lane, cause := cause, addr := e.va, rank := rankOf e.tensor e.va, xdev := some dev }
  let s1 :=
    if !fail then s.modCrew e.uid e.idx (fun c => c.deliver e.dst (lowBytes e.n v))
    else if cause = 6 ∧ e.dst = .none then
      (if e.aborted then s else s.storeFail
        { unit := e.unit, serial := e.serial, node := e.node, uid := e.uid, idx := e.idx, pc := e.pc
          lanes := [e.lane], va := e.va, cause := 6, xdev := dev })
    else s.laneLate e.uid e.idx e.pc (some e.id) false f
  s1.modCrew e.uid e.idx (fun c => c.pageDone s.devid (vaPage e.va))

/-- Deal with the store or atomic of a lane whose request has ended, and drop the words that went with it: `f` says what
its end comes to for the first of them. -/
def State.laneStored (s : State) (rid : Nat) (f : State → Store → State) : State :=
  match s.mem.stores.filter (fun e => e.remote == some rid) with
  | [] => { s with mem := { s.mem with remote := s.mem.remote.filter (fun r => r.rid != rid) } }
  | e :: rest => rest.foldl State.storeGone ((f s e).storeGone e)

/-- Set the answer of a request that its asker reads itself. -/
def State.setAns (s : State) (rid : Nat) (f : Remote → Remote) : State :=
  { s with mem := { s.mem with remote := s.mem.remote.map (fun r => if r.rid == rid then f r else r) } }

/-- Take a request off the list. -/
def State.endRemote (s : State) (rid : Nat) : State :=
  { s with mem := { s.mem with remote := s.mem.remote.filter (fun r => r.rid != rid) } }

/-- Give an item its answer; `first` is the first byte that it wanted (R193). -/
def State.itemAnswer (s : State) (r : Remote) (core id : Nat) (store : Bool) (first v : Word) (fail : Bool) :
    State :=
  match s.item? core id with
  | none => s
  | some it =>
    if fail then
      s.putItem { it with
        remote := none, done := true
        fail := some (failCause v, first, if failCause v = 6 then vaDev r.va else 0) }
    else s.putItem { it with remote := none, cache := if store then it.cache else (r.va.toNat, v) :: it.cache }

/-- The completion word of an instance has been written: the interrupt, and the end of the instance (R74). -/
def State.completionWritten (s : State) (serial : Nat) : State :=
  match s.instOf serial with
  | none => s
  | some a =>
    let s := match a.l.irq with
      | some v => s.send (.msix v)
      | none => s
    s.dropInst a.slot 1

/-- The write of the completion word failed (R369): the instance is complete, with one fault record and no
interrupt. -/
def State.completionFailed (s : State) (serial cause : Nat) : State :=
  match s.instOf serial with
  | none => s
  | some a => (s.writeFault a.l.qsb (s.bareFault a.slot 0 cause 0xFD 0 a.l.compVa 0)).dropInst a.slot 1

/-- Every part of a load that a request serves is dealt with in turn. -/
def State.eachPart (s : State) (load rid : Nat) (f : State → Load → Part → State) : State :=
  match s.load? load with
  | none => s.endRemote rid
  | some l => (l.parts.filter (fun p => p.remote == some rid)).foldl (fun s p =>
      match s.load? load with
      | none => s
      | some l => f s l p) s

/-- The words of an answer, collected by an asker that reads it itself: complete with as many words as it asked
for, or with a failure. -/
def Remote.take (r : Remote) (vs : List Word) (fail : Bool) : Remote :=
  let got := if fail then r.got else r.got ++ vs
  { r with got := got, ans := if fail || decide (r.n ≤ 8 * got.length) then some (vs.headD 0, fail) else none }

/-- The write of a fault record to a ring on another device, or in host memory, has ended (R369). -/
def State.recordSent (s : State) (qsb : Word) (r : Remote) (ok : Bool) : State :=
  let s := s.endRemote r.rid
  let s := if ok then s.bumpFqw qsb else s.dropFault
  (s.imageDone qsb r.val).flushFaults

/-- What host memory holds, read for a request of `n` bytes word by word (R209). -/
def State.hostWords (s : State) (key n : Nat) : List Word := (wordsOf n).map (fun w => s.readKey (key + w.2.1) w.2.2)

/-- A store of the device to host memory is performed (R209). -/
def State.hostStore (s : State) (r : Remote) : State := match r.key with
  | some k => s.perform k (leBytes (min 8 r.n) r.val.toNat)
  | none => s

/-- A response that comes after its request has timed out is discarded and counted (R200). -/
def State.countLate (s : State) : State :=
  { s with host := { s.host with fw := { s.host.fw with lateResponses := s.host.fw.lateResponses + 1 } } }

/-- The home has answered a WAITA's watch, or the host its read (R360): an evicted crew's condition is examined, and a
failure ends its wait (R224). -/
def State.watchAnswer (s : State) (rid u i : Nat) (v : Word) (fail : Bool) : State :=
  (s.setAns rid (fun r => { r with ans := some (v, fail), n := 0 })).modCrew u i (fun c => match c.w.kind with
    | .waita k _ w => { c with w := { c.w with wake := fail || wHolds k v w } }
    | _ => c)

/-- The answer to a request that was served for another device from host memory (R124, R209): the access is performed
and the requester answered. -/
def State.servedAnswer (s : State) (r : Remote) (src rid : Nat) (k : ReqKind) (watch : Bool) (v : Word) (fail : Bool) :
    State :=
  let s := s.endRemote r.rid
  match r.key with
  | none => s
  | some key =>
    if fail then s.send (.answer src rid v true)
    else match k with
    | .load n =>
      let s := (s.hostWords key n).foldl (fun s x => s.send (.answer src rid x false)) s
      if watch then s.watchFor src rid key else s
    | .store n x => (s.performAll key n x).send (.answer src rid 0 false)
    | .atomic op n x y =>
      let old := s.readKey key n
      (s.perform key (leBytes n (atomNew op n old x y).toNat)).send (.answer src rid old false)

/-- An answer that a request can still have: none after the port has gone down (R204), and no failure of an access
whose crew has been told that it can be served and has gone on (R129, R212; log entry 78), but for the failed page of one
that returns nothing, which the crew's next ordering point reports (R137). -/
def State.mayAnswer (s : State) (r : Remote) (v : Word) (fail : Bool) : Bool :=
  !r.lost && (match r.who with
    | .part l _ _ => !fail || (s.load? l).all (fun ld => s.standsAt ld.uid ld.idx ld.id)
    | .store id => !fail || (s.mem.stores.find? (fun e => e.id == id)).all (fun e =>
        (failCause v == 6 && e.dst == .none) || (s.crew? e.uid e.idx).isNone || s.standsAt e.uid e.idx e.id)
    | _ => true)

/-- REMOTE_RESPONSE (R199): the answer reaches the asker; a late one is discarded and counted (R200). An access to host
memory is performed now; those of crews return by LOAD_RETURN and STORE_PERFORMED. -/
def execRemoteResponse (rid : Nat) (v : Word) (fail : Bool) (s : State) : Host.Outcome State Fault Refusal :=
  .next (match s.mem.remote.find? (fun r => r.rid == rid) with
    | none => s.countLate
    | some r =>
      if !s.mayAnswer r v fail then s
      else if r.late then s.countLate
      else
      let vs : List Word := match r.key with
        | some k => if fail then [v] else s.hostWords k r.n
        | none => [v]
      let v := vs.headD v
      match r.who with
      | .part l _ _ =>
        if r.key.isSome then s
        else
          let r1 := r.take vs fail
          if r1.ans.isNone then s.setAns rid (fun _ => r1)
          else s.eachPart l rid (fun s ld p =>
            (if fail then s.partFault ld p (failCause v) (some (vaDev p.va)) false
              else s.partValue ld p (r1.got.getD ((p.va - r.va).toNat / 8) 0)).modCrew ld.uid ld.idx
                (fun c => c.pageDone s.devid (vaPage p.va)))
      | .store _ => if r.key.isSome then s else s.laneStored rid (fun s e => s.storeAnswered e v fail (vaDev e.va))
      | .waita u i _ => s.watchAnswer rid u i v fail
      | .served src q _ k watch => s.servedAnswer r src q k watch v fail
      | .marl _ _ => s.setAns rid (fun r => r.take vs fail)
      | .item core id store first =>
        ((if store && !fail then s.hostStore r else s).endRemote rid).itemAnswer r core id store first v fail
      | .fetch u c =>
        (s.endRemote rid).modCrew u c (fun d => { d with
          w := { d.w with kind := .none }
          x := if fail then { d.x with xout := (vaPage r.va, .load, .fault (failCause v)) :: d.x.xout }
            else { d.x with ibuf := SMap.set 0 d.x.ibuf r.va.toNat (v.toNat % 2 ^ 32 + 1) } })
      | .queue qsb =>
        if r.n = 64 then
          (if fail then s.recordSent qsb r false
           else if 7 ≤ r.got.length then s.recordSent qsb r true
           else s.setAns rid (fun r => { r with got := r.got ++ [v] }))
        else (if r.n = 9 && !fail then s.hostStore r else s).setAns rid (fun r => { r with ans := some (v, fail) })
      | .grid _ _ _ => s.setAns rid (fun r => { r with ans := some (v, fail) })
      | .lp _ => ((if fail then s else s.hostStore r).endRemote rid)
      | .completion serial =>
        if fail then (s.endRemote rid).completionFailed serial (failCause v)
        else ((s.hostStore r).endRemote rid).completionWritten serial)

/-- The timeout in nanoseconds (R200). -/
def State.timeoutNs (s : State) : Nat := 1000 * s.host.fw.timeout

/-- The device that a timeout names: this one for host memory (R209). -/
def State.lateDev (s : State) (va : Word) : Nat := if vaDev va = s.devid then s.devid else vaDev va

/-- REMOTE_TIMEOUT (R200, R201): a load reads all ones, a store is lost, an atomic returns all ones; the
crew's XSR says so, and under TRAPEN.XTO at issue it takes ACCESS. What R200 leaves open of an access to host memory,
which lies in this model, is its choice (log entry 109): a store or atomic that times out is never performed, but for a
completion word, which the host finds (R209), and the request of another device that is served there gets no answer. -/
def execRemoteTimeout (rid : Nat) (s : State) : Host.Outcome State Fault Refusal :=
  .next (match s.mem.remote.find? (fun r => r.rid == rid) with
    | none => s
    | some r =>
      if s.clk.ns < r.sent + s.timeoutNs then s
      else
        let dev := s.lateDev r.va
        match r.who with
        | .part l _ _ =>
          s.eachPart l rid (fun s ld p =>
            let s1 := s.modCrew ld.uid ld.idx (fun c => (c.setXsr s.clk.cycle 0 dev).pageDone s.devid (vaPage p.va))
            let s2 := if ld.xto then
                s1.laneLate ld.uid ld.idx ld.pc (some ld.id) true
                  { lane := p.lane, cause := 4, addr := p.va, rank := rankOf ld.tensor p.va, xdev := some dev, late := true }
              else s1
            s2.partValue ld p (allOnes p.n))
        | .store _ => s.laneStored rid (fun s e =>
          let s1 := s.modCrew e.uid e.idx (fun c =>
            ((c.setXsr s.clk.cycle (if e.op.isSome then 2 else 1) dev).deliver e.dst (allOnes e.n)).pageDone s.devid
              (vaPage e.va))
          if e.xto then
            s1.laneLate e.uid e.idx e.pc (if e.op.isSome then some e.id else none) true
              { lane := e.lane, cause := 4, addr := e.va, rank := rankOf e.tensor e.va, xdev := some dev, late := true }
          else s1)
        | .waita u i _ =>
          if r.n = 0 || r.late then s
          else (s.setAns rid (fun r => { r with ans := some (0, false), late := true })).modCrew u i (fun c =>
            match c.w.kind with
            | .waita _ _ _ => { c with w := { c.w with wake := true } }
            | _ => c)
        | .served _ _ _ _ _ => s.endRemote rid
        | .marl _ _ =>
          if r.ans.isSome then s else s.setAns rid (fun r => { r with ans := some (0, true), late := true })
        | .item core id store first =>
          (match s.item? core id with
           | none => s.endRemote rid
           | some it =>
             let it1 := { it with
               remote := none, told := true, cache := if store then it.cache else (r.va.toNat, allOnes 8) :: it.cache }
             ((s.endRemote rid).itemFlag it (if store then 1 else 0) dev first false).putItem (it1))
        | .fetch u c =>
          (s.endRemote rid).modCrew u c (fun d => { (d.setXsr s.clk.cycle 0 dev) with
            w := { d.w with kind := .none }
            x := { d.x with ibuf := SMap.set 0 d.x.ibuf r.va.toNat (2 ^ 32) } })
        | .queue qsb =>
          if r.n = 64 then s.recordSent qsb r false
          else if r.ans.isSome then s
          else s.setAns rid (fun r => { r with ans := some (BitVec.allOnes 64, false), late := true })
        | .grid _ _ _ =>
          if r.ans.isSome then s else s.setAns rid (fun r => { r with ans := some (0, false), late := true })
        | .lp _ => s.endRemote rid
        | .completion serial =>
          if r.key.isSome then ((s.hostStore r).endRemote rid).completionWritten serial
          else (s.endRemote rid).completionFailed serial 4)

/-- WAITA_WATCH_ANSWER (R360): the home's answer; the condition is checked when the crew issues again. -/
def execWaitaWatchAnswer (rid : Nat) (v : Word) (s : State) : Host.Outcome State Fault Refusal :=
  .next (match s.mem.remote.find? (fun r => r.rid == rid) with
    | none => s.countLate
    | some r =>
      match r.who with
      | .waita u i _ => if r.lost || r.key.isSome then s else if r.late then s.countLate else s.watchAnswer rid u i v false
      | _ => s)

/-- A read of host memory for a WAITA goes out again (R224, R360): to the home as it is now translated, else the
crew looks again. -/
def State.renewHost (s : State) (r : Remote) (u i ctx : Nat) : State :=
  match s.xlateNow ctx r.va .load with
  | .home k =>
    let key := k + r.va.toNat % 2 ^ 16
    (s.setAns r.rid (fun r => { r with n := 8, sent := s.clk.ns, key := some key, ans := none })).send
      (.hostRequest (s.pasidOf ctx) r.rid (key % 2 ^ 56) (.load 8))
  | _ => (s.endRemote r.rid).modCrew u i (fun c => { c with w := { c.w with wake := true } })

/-- WAITA_WATCH_RENEW (R360): after 2 µs the watch goes out again, or the read of a word of host memory that has been
answered. -/
def execWaitaWatchRenew (rid : Nat) (s : State) : Host.Outcome State Fault Refusal :=
  .next (match s.mem.remote.find? (fun r => r.rid == rid) with
    | none => s
    | some r =>
      match r.who with
      | .waita u i _ =>
        if s.clk.ns < r.sent + 2000 || r.late || (r.key.isSome && r.n != 0) then s
        else
          match s.cohort? u with
          | none => s
          | some h =>
            if r.key.isSome then s.renewHost r u i h.ctx else
            let port := s.accessPort (dieOf (h.coreOf i)) (vaDev r.va) r.va
            (s.setAns rid (fun r => if r.n = 0 then
                { r with n := 8, sent := s.clk.ns, port := port, lost := false } else { r with port := port, lost := false })).send
              (.watch (vaDev r.va) (port.getD 0) rid h.ctx (s.genOf h.ctx) r.va)
      | _ => s)

/-- WAKE_CONDITION_RECHECK (R224): the die examines the WAITA condition of an evicted crew; that of a word elsewhere, or
of host memory, is examined when its answer comes. -/
def execWakeConditionRecheck (u c : Nat) (s : State) : Host.Outcome State Fault Refusal :=
  .next (match s.crew? u c, s.cohort? u with
    | some cr, some h =>
      (match cr.w.kind, h.ev with
       | .waita k va v, .evicted _ =>
         (match s.route va, s.xlateNow h.ctx va .load with
          | .own _, .home key =>
            if key / 2 ^ 56 = 2 then s else
            let x := s.readKey (key + va.toNat % 2 ^ 16) 8
            s.putCrew { cr with w := { cr.w with wake := wHolds k x v } }
          | _, _ => s.noteMalformed h.ctx va .load)
       | _, _ => s)
    | _, _ => s)

/-! ## SHINV (R148, R149) -/

/-- An invalidation with every acknowledgement counted ends: at the root the completion word is written,
elsewhere the parent is told (R148). -/
def State.shinvDone (s : State) (id : Nat) : State :=
  match s.mmu.shinvs.find? (fun v => v.id == id) with
  | none => s
  | some v =>
    if !v.wait.isEmpty || !v.local_ then s
    else
      let s := { s with mmu := { s.mmu with shinvs := s.mmu.shinvs.filter (fun x => x.id != id) } }
      match v.root, v.parent with
      | some (u, off, w), _ => (s.completeWord u off w).afterItem u
      | none, some (p, rid) => s.send (.shinvAck p rid)
      | none, none => s

/-- SHINV_RELAY (R148): both Marl caches drop the tensor, and the invalidation goes on to the children. -/
def execShinvRelay (parent rid tensor : Nat) (children : List Nat) (s : State) :
    Host.Outcome State Fault Refusal :=
  .next (
    let id := s.fresh.id
    let v : Shinv := { id := id, die := 0, tensor := tensor, ctx := 0, root := none, parent := some (parent, rid)
                       wait := children.map (fun k => (k, s.clk.ns)) }
    let s := (s.bumpId).dropMarl tensor
    let s := { s with mmu := { s.mmu with shinvs := s.mmu.shinvs ++ [v] } }
    children.foldl (fun s k => s.send (.shinv k id tensor)) s)

/-- Sharded accesses that resolved with the entries that an invalidation has dropped are still on their way (R148):
those resolved before it, by the number that it drew. -/
def State.tensorBusy (s : State) (v : Shinv) : Bool :=
  let old (w : WaitSt) : Bool := w.resolvedWith v.tensor && decide (w.res ≤ v.id)
  s.mem.loads.any (fun (l : Load) => l.tensor == some v.tensor && decide (l.res ≤ v.id))
    || s.mem.stores.any (fun e => e.tensor == some v.tensor && decide (e.res ≤ v.id))
    || s.mem.log.any (fun e => e.tensor == some v.tensor && decide (e.res ≤ v.id))
    || s.crews.any (fun c => old c.w || old c.h.w)

/-- A device is fenced (R149): its accesses fail from now on, here too when a parent elsewhere has fenced it. A WAITA on a
word of it ends, an evicted crew's too (R224, R360). -/
def State.setFence (s : State) (dev : Nat) : State :=
  { s with
    crews := s.crews.map (fun c => match c.w.kind with
      | .waita _ va _ => if vaDev va == dev then { c with w := { c.w with wake := true } } else c
      | _ => c)
    fab := { s.fab with
      fenced := if s.fab.fenced.contains dev then s.fab.fenced else s.fab.fenced ++ [dev]
      admitted := s.fab.admitted.filter (fun d => d != dev) } }

/-- SHINV_ACK (R148): a child has acknowledged; `child` is this device when its own sharded accesses have
been performed. -/
def execShinvAck (id child : Nat) (s : State) : Host.Outcome State Fault Refusal :=
  .next (match s.mmu.shinvs.find? (fun v => v.id == id) with
    | none => s
    | some v =>
      let put (f : Shinv → Shinv) : State :=
        { s with mmu := { s.mmu with shinvs := s.mmu.shinvs.map (fun (x : Shinv) => if x.id == id then f x else x) } }
      if child = s.devid then
        (if s.tensorBusy v then s else (put (fun x => { x with local_ := true })).shinvDone id)
      else (put (fun x => { x with wait := x.wait.filter (fun w => w.1 != child) })).shinvDone id)

/-- SHINV_FENCE (R149): after 100 µs without its acknowledgement a device is fenced; its children are
relayed to directly, and the host is told. -/
def execShinvFence (id child : Nat) (grand : List Nat) (s : State) : Host.Outcome State Fault Refusal :=
  .next (match s.mmu.shinvs.find? (fun v => v.id == id) with
    | none => s
    | some v =>
      match v.wait.find? (fun w => w.1 == child) with
      | none => s
      | some (_, t) =>
        if s.clk.ns < t + 100000 then s
        else
          let f (x : Shinv) : Shinv :=
            { x with wait := x.wait.filter (fun w => w.1 != child) ++ grand.map (fun g => (g, s.clk.ns)) }
          let s1 := { s with
            mmu := { s.mmu with shinvs := s.mmu.shinvs.map (fun (x : Shinv) => if x.id == id then f x else x) } }.setFence child
          let s2 := (grand.foldl (fun s g => s.send (.shinv g id v.tensor)) s1).send (.fence child v.tensor)
          s2.shinvDone id)

/-! ## Host translations (R208) -/

/-- ATS_TRANSLATION_RESPONSE (R208): the answer is held; one without access is met as a page request. -/
def execAtsTranslationResponse (ctx page : Nat) (bus : Option Nat) (w : Bool) (s : State) :
    Host.Outcome State Fault Refusal :=
  .next (
    let e : Ats := { ctx := ctx, page := page, bus := bus, w := w }
    let s := { s with mmu := { s.mmu with
      ats := e :: s.mmu.ats.filter (fun x => !(x.ctx == ctx && x.page == page)) } }
    (((s.freeItems ctx page (fun i _ => i)).replay ctx page).reserve ctx page).flushFaults)

/-- ATS_INVALIDATION (R208): completes once every access translated by the entry has been performed. -/
def execAtsInvalidation (ctx page : Nat) (s : State) : Host.Outcome State Fault Refusal :=
  .next (if s.pageBusy ctx page then s
    else
      let s := s.shoot ctx page
      { s with mmu := { s.mmu with ats := s.mmu.ats.filter (fun x => !(x.ctx == ctx && x.page == page)) } })

/-- PRI_RESPONSE (R208): it answers the oldest page request of the page that is out, in that request's generation
(R138). Success reissues the waiters, which ask the IOMMU again for what its answer did not allow; anything else is a
failed answer. A response to no request is late. -/
def execPriResponse (ctx page : Nat) (ok : Bool) (s : State) : Host.Outcome State Fault Refusal :=
  .next (
    match s.mmu.pris.find? (fun p => p.1 == ctx && p.2.2 == page) with
    | none => s.countLateAnswer 0
    | some p =>
      let live := s.mmu.merge.any (fun e => e.open_ && e.ctx == ctx && e.gen == p.2.1 && e.page == page)
      let again (e : Ats) : Ats := if ok && live && e.ctx == ctx && e.page == page then { e with again := true } else e
      let s := { s with mmu := { s.mmu with pris := s.mmu.pris.erase p, ats := s.mmu.ats.map again } }
      s.answerPage 0 page ctx p.2.1 (!ok))

/-! ## Errors (R244) -/

/-- UNCORRECTABLE_ERROR (R244): the line is poisoned and counted. -/
def execUncorrectableError (line : Nat) (s : State) : Host.Outcome State Fault Refusal :=
  .next { s with
    mem := { s.mem with poison := if s.mem.poison.contains line then s.mem.poison else line :: s.mem.poison }
    host := { s.host with fw := { s.host.fw with uncorrected := s.host.fw.uncorrected + 1 } } }

/-- CORRECTED_ERROR (R244): core 4 counts it; nothing else changes. -/
def execCorrectedError (s : State) : Host.Outcome State Fault Refusal :=
  .next { s with host := { s.host with fw := { s.host.fw with corrected := s.host.fw.corrected + 1 } } }

end Sys2Proof.Machine
end

