-- ==== Sys2Proof/Machine/Sched.lean ====
section
/-! DEFINITION. Hedgerow and placement: priorities (R77, R79), offers (R61 to R63), targets (R84 to R86), the
creation of a cohort and its resume (R31, R85, R89, R278), wake conditions (R224), saves (R222). -/

namespace Sys2Proof.Machine

/-! ## Priority -/

/-- X waits on its dependency (R77), or for its status word to be written (R369). -/
def State.depWaits (s : State) (a : Inst) : Bool := a.l.waiting || (match a.l.dep with
  | some d => s.insts.any (fun x => x.l.serial == d)
  | none => false)

/-- Effective priority (R77); `k` bounds the chain of waiting instances. -/
def State.ep (s : State) (a : Inst) : Nat → Nat
  | 0 => a.l.prio
  | k + 1 => (s.insts.filter (fun x => x.l.dep == some a.l.serial)).foldl (fun m x => max m (s.ep x k)) a.l.prio

/-- Node priority (R79). -/
def State.np (s : State) (a : Inst) (n : Nat) : Nat :=
  let p : Int := (s.ep a s.insts.length : Int) + (a.node n).pbias
  (min 7 (max 0 p)).toNat

/-! ## Resources (R84) -/

/-- A logical core is enabled (R14). -/
def State.coreEnabled (s : State) (core : Nat) : Bool := decide (core < 192) && !s.sched.disabled.contains core

/-- The cohorts that hold resources of a core. -/
def State.holders (s : State) (core : Nat) : List Cohort :=
  s.cohorts.filter (fun h => (match h.ev with | .evicted _ => false | _ => true)
    && (h.sh.core == core || (h.sh.span && h.sh.core + 1 == core)))

/-- The crews of a shape on one of its cores (R20). -/
def Shape.crewsOn (sh : Shape) (core : Nat) : Nat :=
  if !sh.span then sh.ncrew
  else if core = sh.core then (sh.ncrew + 1) / 2 else sh.ncrew - (sh.ncrew + 1) / 2

/-- What is free on a core beside some cohorts and the scratchpad windows `ws`: crew slots, registers, scratchpad KiB,
tiles. -/
def room (ws : List (Nat × Nat)) (hs : List Cohort) (core : Nat) : Nat × Nat × Nat × Nat :=
  let sum (f : Cohort → Nat) : Nat := (hs.map f).sum
  (64 - sum (fun h => h.sh.crewsOn core), 4096 - sum (fun h => h.sh.budget),
    1024 - 64 * (ws.filter (fun w => w.1 == core)).length
      - sum (fun h => if h.sh.core = core then h.sh.kib else 0),
    64 - sum (fun h => h.sh.tiles))

/-- The cores of a target: a core, or a twin pair by its even core. -/
def targetCores (span : Bool) (core : Nat) : List Nat := if span then [core, core + 1] else [core]

/-- The targets of a die for a shape (R20). -/
def dieTargets (die : Nat) (span : Bool) : List Nat :=
  if span then (List.range 48).map (fun k => 96 * die + 2 * k) else (List.range 96).map (fun k => 96 * die + k)

/-- A shape fits a target beside those of its cohorts that `stay` keeps and the windows `ws` (R84, R130). -/
def State.fits (s : State) (ws : List (Nat × Nat)) (stay : Cohort → Bool) (sh : Shape) (core : Nat) : Bool :=
  let sh := { sh with core := core }
  (targetCores sh.span core).all (fun k => s.coreEnabled k && (
    let (cs, rs, kib, ts) := room ws ((s.holders k).filter stay) k
    decide (sh.crewsOn k ≤ cs) && decide (sh.budget ≤ rs) && decide (sh.tiles ≤ ts)
      && (k != core || decide (sh.kib ≤ kib))))

/-- The stage of a crew (R46). -/
def Node.stage (n : Node) (c : Nat) : Nat :=
  (List.range 8).foldl (fun m i => if n.sstart.getD i 0 ≤ c then i else m) 0

/-- Initial registers of a crew (R31, R45). -/
def Node.size (n : Node) (c : Nat) : Nat := 8 * n.ireg.getD (n.stage c) 0

/-- The shape of a node's cohorts (R20, R33). -/
def Node.shape (n : Node) : Shape :=
  { ncrew := n.ncrew, span := decide (64 < n.ncrew), core := 0, budget := 8 * n.budget
    free := 8 * n.budget - ((List.range n.ncrew).map n.size).sum, kib := n.scratch, tiles := n.tiles }

/-- A free lane-private area, if the instance needs one (R235): none when it needs one and has none. -/
def Inst.lpArea (a : Inst) : Option (Option Nat) :=
  if a.a.lpSize = 0 then some none
  else ((List.range (min a.a.lpAreas (a.a.lpUsed.length + 1))).find? (fun k => !a.a.lpUsed.contains k)).map some

/-! ## Targets (R85, R86, R88) -/

/-- A target shares a core with another one. -/
def meets (sp1 : Bool) (c1 : Nat) (sp2 : Bool) (c2 : Nat) : Bool :=
  (targetCores sp1 c1).any (fun k => (targetCores sp2 c2).contains k)

/-- A target accepts this placement: reserved targets only the reserving offer or a cohort evicted from
there (`home`), targets under eviction only the claimant (R86, R88). -/
def State.accepts (s : State) (key : Option OfferKey) (home : Option Nat) (span : Bool) (core : Nat) :
    Bool :=
  s.sched.resv.all (fun r => !meets span core r.span r.core || key == some r.key || home == some core)
    && s.sched.claims.all (fun c =>
      let sp : Bool := match s.inst? c.key.1 with
        | some a => decide (64 < (a.node c.key.2.1).ncrew)
        | none => false
      !meets span core sp c.target || key == some c.key)

/-- The target for a placement (R85): the one with the most free crew slots, then the lowest number. An offer
with a reservation goes there (R86). -/
def State.target (s : State) (die : Nat) (key : Option OfferKey) (home : Option Nat) (sh : Shape) :
    Option Nat :=
  let mine := s.sched.resv.filter (fun r => key == some r.key)
  let ts := if mine.isEmpty then dieTargets die sh.span else mine.map (·.core)
  let ws := s.windows
  let ok := ts.filter (fun c => s.accepts key home sh.span c && s.fits ws (fun _ => true) sh c)
  let free (c : Nat) : Nat := ((targetCores sh.span c).map (fun k => (room ws (s.holders k) k).1)).sum
  ok.foldl (fun best c => match best with
    | none => some c
    | some b => if free b < free c then some c else some b) none

/-! ## Cohorts (R19, R31, R85) -/

/-- The occupancy mask of a crew (R23). -/
def omOf (n : Node) (nrec idx : Nat) : Mask :=
  if n.kind ≠ 0 then Mask.all else BitVec.ofNat 32 (2 ^ min 32 (nrec - 32 * idx) - 1)

/-- The crew slot of a core, of those not in `used`, that the next crew takes: the partition with the fewest
occupied slots (R85). Slot k of partition p has number 4 p + k. -/
def nextSlot (used : List Nat) : Nat :=
  let occ (p : Nat) : Nat := (used.filter (fun u => u / 4 == p)).length
  let p := (List.range 16).foldl (fun b p => if occ p < occ b then p else b) 0
  4 * p + (((List.range 4).find? (fun k => !used.contains (4 * p + k))).getD 0)

/-- Slots in use on a core, those of an aborted cohort whose items still run among them (R219). -/
def State.usedSlots (s : State) (core : Nat) : List Nat :=
  (s.holders core).flatMap (fun h =>
    (h.slots.mapIdx (fun i k => (i, k))).filterMap (fun x => if h.coreOf x.1 == core then some x.2 else none))

/-- Slots for the crews of a cohort of a shape on a target, in crew order (R85). -/
def State.slotsFor (s : State) (sh : Shape) : List Nat :=
  let go (core n : Nat) : List Nat :=
    ((List.range n).foldl (fun (acc : List Nat × List Nat) _ =>
      let k := nextSlot acc.1
      (k :: acc.1, acc.2 ++ [k])) (s.usedSlots core, [])).2
  go sh.core (sh.crewsOn sh.core) ++ (if sh.span then go (sh.core + 1) (sh.crewsOn (sh.core + 1)) else [])

/-- The scalar registers at node entry (R278). -/
def entryRegs (n : Node) (a : Inst) (x y z c nrec : Nat) : SMap Word :=
  let l : List (Nat × Word) :=
    [(1, n.const), (2, a.l.ictx), (3, BitVec.ofNat 64 x), (4, BitVec.ofNat 64 y), (5, BitVec.ofNat 64 z),
      (6, BitVec.ofNat 64 (c + n.stage c * 2 ^ 8 + n.ncrew * 2 ^ 16)), (7, BitVec.ofNat 64 nrec)]
  l.foldl (fun m e => SMap.set 0 m e.1 e.2) []

/-- A crew at launch (R31), with the acquire of R116. -/
def newCrew (n : Node) (a : Inst) (uid idx x y z nrec acq slot : Nat) : Crew :=
  { uid := uid, idx := idx, stage := n.stage idx
    r := { pc := n.entry, s := entryRegs n a x y z idx nrec }
    m := { om := omOf n nrec idx, xm := omOf n nrec idx }
    g := { seed := a.l.seed }
    x := { acq := acq }
    size := n.size idx, slot := slot }

/-- Place a new cohort of an element on a target (R31, R50, R84, R90). On the other die than the node's own the
placement takes effect in the next round (R80; log entry 84). -/
def State.spawn (s : State) (a : Inst) (nd e : Nat) (core : Nat) (recs : List QRec) (x y z : Nat)
    (space : Option Nat) : State :=
  let n := a.node nd
  let uid := s.fresh.uid
  let sh := { n.shape with core := core }
  let lp := (a.lpArea.getD none)
  let h : Cohort :=
    { uid := uid, inst := a.slot, serial := a.l.serial, ctx := a.l.ctx, node := nd, elem := e, x := x, y := y, z := z
      sh := sh, recs := recs, depth := recs.foldl (fun m q => max m q.r.depth) 0, lp := lp, space := space
      early := n.early && !(s.predsDone a nd), placedAt := s.fresh.seq
      ev := if dieOf core = nd % 2 then .placed else .landing, slots := s.slotsFor sh }
  let slots := h.slots
  let crews := (List.range n.ncrew).map (fun i =>
    newCrew n a uid i x y z recs.length s.fresh.stamp (slots.getD i 0))
  let take (b : Inst) : Inst := { b with a := { b.a with lpUsed := match lp with
    | some k => k :: b.a.lpUsed
    | none => b.a.lpUsed } }
  ({ s with
    crews := s.crews ++ crews
    cohorts := s.cohorts ++ [h]
    fresh := { s.fresh with uid := uid + 1, seq := s.fresh.seq + 1 } }).modInst a.slot take
  |> (fun s => (List.range n.ncrew).foldl (fun s i => s.reform uid i) s)

/-- Resume an evicted cohort on a target (R89, R116, R224): it keeps its contents, its crews acquire, its save
slot is free again (R236). -/
def State.resume (s : State) (h : Cohort) (core : Nat) : State :=
  let sh := { h.sh with core := core }
  let slots := s.slotsFor sh
  let h1 := { h with sh := sh, ev := .placed, placedAt := s.fresh.seq, slots := slots }
  let used : List Nat := match h.ev with
    | .evicted k => [k]
    | _ => []
  let s := (s.bumpSeq.modCohort h.uid (fun _ => h1)).modCrews h.uid (fun c =>
    { (s.acquired c h1 4) with slot := slots.getD c.idx 0, w := { c.w with wake := false } })
  let s := s.modInst h.inst (fun a => { a with a := { a.a with
    slotsUsed := a.a.slotsUsed.filter (fun k => !used.contains k) } })
  (List.range h.sh.ncrew).foldl (fun s i => s.reform h.uid i) s

/-! ## Wake conditions (R224) -/

/-- An element can accept a record by R57. -/
def State.canAccept (s : State) (a : Inst) (n e : Nat) : Bool :=
  let r : Record := ⟨n, e, 0, 0, 0, 0, false, 0, []⟩
  (s.enqueue? a.slot r true).isSome

/-- The outbound area of a die has a free place (R72). -/
def State.outRoom (s : State) (die : Nat) : Bool :=
  decide ((s.fab.outbound.filter (fun o => o.die == die)).length < 1024)

/-- What a waiting crew of an evicted cohort waits for holds; `wake` is what the save, or the home's answer,
found. -/
def State.wakes (s : State) (h : Cohort) (c : Crew) : Bool :=
  if c.gone then false
  else match c.w.kind with
    | .barrier _ | .sp _ _ | .waitaSp _ _ _ | .waita _ _ _ | .regclm _ | .page _ => c.w.wake
    | .emit n e => (match s.inst? h.inst with
      | some a => s.canAccept a n e
      | none => false)
    | .emitRemote => s.outRoom (dieOf (h.coreOf c.idx))
    | .waitpred => (match s.inst? h.inst with
      | some a => s.predsDone a h.node
      | none => false)
    | .none | .remote | .yield | .logFull | .logPage _ | .release => true

/-- What the save finds of a crew's wait (R224). -/
def State.wakeAtSave (s : State) (h : Cohort) (c : Crew) : Bool :=
  match c.w.kind with
  | .barrier b => !(h.bars.any (fun x => x.n == b && x.arr.contains c.idx))
  | .sp off full => h.full off == full
  | .waitaSp k off v => wHolds k (h.sp64 off) v
  | .regclm n => decide (n ≤ h.sh.free)
  | .waita k va v => (match s.route va, s.xlateNow h.ctx va .load with
      | .own _, .home key => if key / 2 ^ 56 = 2 then c.w.wake else wHolds k (s.readKey (key + va.toNat % 2 ^ 16) 8) v
      | _, _ => c.w.wake)
  | _ => false

/-- An evicted cohort may resume (R89, R224): the condition of one of its crews holds. -/
def State.mayResume (s : State) (h : Cohort) : Bool :=
  (match h.ev with | .evicted _ => true | _ => false) && !s.sched.stopped
    && (s.crewsOf h.uid).any (fun c => s.wakes h c)

/-! ## Saves (R222, R225) -/

/-- A crew stands at EXIT or at a blocking point (R42, R87). -/
def Crew.atRest (c : Crew) : Bool := c.gone || c.blocked

/-- An instance has a save slot free beside those that the saves under way will take (R236). -/
def State.slotFree (s : State) (a : Inst) : Bool :=
  decide (a.a.slotsUsed.length
    + (s.cohorts.filter (fun h => h.serial == a.l.serial && h.ev == .saving)).length < a.a.slots)

/-- A cohort may be evicted for a claimant of priority `p` (R87): not while an item of it waits for a ring tag
(R194), be it one that an edge still holds back, the model's choice (log entry 102), nor while it aborts. -/
def State.eligible (s : State) (h : Cohort) (p : Nat) : Bool :=
  match s.inst? h.inst with
  | none => false
  | some a => h.ev == .placed && h.halt.all (fun k => !k.abort) && decide (s.np a h.node < p)
      && (s.crewsOf h.uid).all Crew.atRest && s.slotFree a && (s.itemsOf h.uid).all (fun i => !i.tagWait h)

/-- The waits of step 2 of R222 are over. -/
def State.saveReady (s : State) (h : Cohort) : Bool :=
  !s.storageBusy h.uid && s.mem.stores.all (fun e => e.uid != h.uid) && s.mem.loads.all (fun l => l.uid != h.uid)
    && s.mem.log.all (fun e => e.uid != h.uid) && (s.crewsOf h.uid).all (fun c => !c.g.moving)
    && s.mem.remote.all (fun r => match r.who with
      | .fetch u _ => u != h.uid
      | .marl u _ => u != h.uid || r.ans.isSome
      | _ => true)

/-- The words of the lane-private regions of a cohort, with their addresses (R104). -/
def State.lpWords (s : State) (h : Cohort) : List (Word × List Byte) :=
  if h.lp.isNone then []
  else (s.crewsOf h.uid).flatMap (fun c => (List.range (32 * s.lpSize h / 8)).map (fun i =>
    (s.lpAddr c h 0 0 + BitVec.ofNat 64 (8 * i), (List.range 8).map (fun j => SMap.get 0 c.x.lp (8 * i + j)))))

/-- Write the lane-private regions back to their homes (R104), here or on another device. A word whose home cannot be
reached is not written (log entry 58). -/
def State.lpBack (s : State) (h : Cohort) : State :=
  ((s.lpWords h).map (fun w => (w, s.devWord (.lp h.uid) h.ctx w.1 .store))).foldl (fun s x =>
    match x.2 with
    | .ok k => if k / 2 ^ 56 = 2 then
        (s.newHost h.ctx k (.lp h.uid) x.1.1 8 (.store 8 [BitVec.ofNat 64 (leVal x.1.2)])).1 else s.perform k x.1.2
    | .remote d => (s.newRemote (dieOf h.sh.core) d h.ctx (.lp h.uid) x.1.1 8
        (.store 8 [BitVec.ofNat 64 (leVal x.1.2)])).1
    | .fail _ => s.devClear (.lp h.uid) h.ctx x.1.1
    | .wait => s) (s.modCohort h.uid (fun x => { x with back := true }))

/-- The pages that the write-back of lane-private regions must wait for are asked for (R132). -/
def State.lpAsk (s : State) (h : Cohort) : Option State :=
  match (s.lpWords h).filter (fun w => s.devWord (.lp h.uid) h.ctx w.1 .store == .wait) with
  | [] => none
  | l => some (l.foldl (fun s w => s.devAskQ (.lp h.uid) h.ctx w.1 .store) s)

/-- Steps 3 to 5 of R222: loads held for pages are abandoned, the image goes to a save slot, the resources
are free. -/
def State.evict (s : State) (h : Cohort) (a : Inst) (k : Nat) : State :=
  let cs := s.crewsOf h.uid
  let s := s.perform (rawKey (a.slotVa k)) (saveImage h cs false)
  let s := s.modCrews h.uid (fun c => { c with
    ext := [], w := { c.w with wake := s.wakeAtSave h c, held := [] } })
  let s := s.modCohort h.uid (fun x => { x with ev := .evicted k, slots := [], back := false })
  s.modInst a.slot (fun b => { b with a := { b.a with slotsUsed := k :: b.a.slotsUsed } })

/-- A crew's fault that a save must take first (R137, R222): the cohort stays placed. -/
def State.saveTrap (s : State) (h : Cohort) : Option State :=
  let cs := s.crewsOf h.uid
  match cs.find? (fun c => c.fail.isSome && !c.g.exited) with
  | some c => (match c.fail with
    | some (_, t) => some (s.takeTrap { c with fail := none } h { t with resume := c.r.pc })
    | none => none)
  | none =>
    if cs.any (fun c => !c.pend.isEmpty) then some (s.modCohort h.uid (fun x => { x with ev := .placed })) else none

/-- End the save of a cohort when it can end (R222, R223): a cohort whose crews have all exited retires
instead. The lane-private regions are written back first (R104). Without a free slot the cohort stays placed. -/
def State.saveNow (s : State) (h : Cohort) : State :=
  let stay (x : Cohort) : Cohort := { x with ev := .placed }
  if (s.crewsOf h.uid).all (fun c => c.gone && c.pend.isEmpty) then (s.modCohort h.uid stay).tryRetire h.uid
  else if !s.saveReady h then s
  else match s.saveTrap h, (s.inst? h.inst).bind (fun a => a.freeSlot.map (fun k => (a, k))) with
    | some s1, _ => s1
    | none, none => s.modCohort h.uid stay
    | none, some (a, k) =>
      match (if h.back then none else s.lpAsk h) with
      | some s1 => s1
      | none =>
        let s1 := if h.back then s else s.lpBack h
        if s1.mem.remote.any (fun r => r.who == .lp h.uid) then s1 else s1.evict h a k

/-- The placements that were chosen in the die's last round for nodes of the other die take effect (R80, R116). -/
def State.land (s : State) (die : Nat) : State :=
  (s.cohorts.filter (fun h => h.ev == .landing && dieOf h.sh.core == die)).foldl (fun s h =>
    (s.bumpSeq.modCohort h.uid (fun x => { x with ev := .placed, placedAt := s.fresh.seq })).modCrews h.uid
      (fun c => { c with x := { c.x with acq := s.fresh.stamp } })) s

/-! ## Reservations of other devices (R72) -/

/-- The live instance of a tag (R71): one from its acceptance until it completes (R76), not one whose status word is
still on its way, nor one that has completed and whose completion word is (log entries 95, 108). -/
def State.tagged (s : State) (tag : Nat) : Option Inst :=
  s.insts.find? (fun a => a.l.tag == tag && !a.l.waiting && !a.l.ending)

/-- The places that an element can still set aside, and whether in the Silt ring (R57, R72): in the Loam bank while
the queue has no Silt part and the bank has a free slot, else behind its Silt part. -/
def State.spare (s : State) (a : Inst) (n e : Nat) : Nat × Bool :=
  let q := a.queue n e
  let cap := (a.node n).cap - (q.count + s.granted a n e)
  let loam := loamSlots - (s.bankCount (bankOf n e) + s.bankGranted (bankOf n e))
  if q.silt.isEmpty && decide (0 < loam) then (min cap loam, false)
  else (min cap (s.siltRoom a n e (s.granted a n e - s.loamGranted a n e)), true)

/-- Grant reservations in the order in which they were asked for, as room appears (R72). An asker whose
instance here has gone is granted at once: its records are refused when they come (R71). -/
def State.serveGrants (s : State) : State :=
  (s.fab.asks.foldl (fun (acc : State × List (Nat × Nat × Nat)) k =>
    let s := acc.1
    let el := (k.tag, k.node, k.elem)
    let without : State := { s with fab := { s.fab with asks := s.fab.asks.erase k } }
    if acc.2.contains el then acc
    else match s.tagged k.tag with
      | none => (without.send (.grant k.src k.tag k.node k.elem k.n), acc.2)
      | some a =>
        let (room, silt) := s.spare a k.node k.elem
        let m := min k.n room
        if m = 0 then (s, el :: acc.2)
        else
          let g : Grant := { id := s.fresh.id, src := k.src, tag := k.tag, node := k.node, elem := k.elem, n := m
                             until_ := s.clk.ns + 1000 * s.host.fw.resTime, silt := silt }
          let s1 := without.bumpId
          (({ s1 with fab := { s1.fab with grants := s1.fab.grants ++ [g] } }).send
            (.grant k.src k.tag k.node k.elem m), acc.2)) (s, [])).1

end Sys2Proof.Machine
end

