-- ==== Sys2Proof/Machine/SchedEvents.lean ====
section
/-! DEFINITION. Events of Hedgerow, placement and eviction (R36, R57, R58, R61 to R63, R70, R74, R75, R80 to R90,
R214, R222). -/

namespace Sys2Proof.Machine

/-! ## Grids and tile spaces (R62, R63) -/

/-- A record whose storage is poisoned (R244): the line of its Silt place, or in key space 4 that of its Loam slot, by
record number. -/
def State.recPoisoned (s : State) (a : Inst) (q : QRec) : Bool :=
  s.mem.poison.contains (4 * 2 ^ 50 + q.id)
    || (q.blk.isSome && s.mem.poison.contains (rawKey (a.siltAt q) / 64))

/-- What reading a grid word gives (R62). -/
inductive GridWord where
  | word (v : Word)
  | fault (cause xdev : Nat)
  | wait (s : State)

/-- The answer of another device or of the host to the request for a grid word, which `ask` sends. One that the host
never answers reads as all ones (R200, R209). -/
def State.gridAnswer (s : State) (a : Inst) (n e dev : Nat) (ask : State) : GridWord :=
  match s.mem.remote.find? (fun r => r.who == Asker.grid a.l.serial n e) with
  | none => .wait ask
  | some r => match r.ans with
    | none => .wait s
    | some (v, fail) =>
      if r.late then (if r.key.isSome then .word (BitVec.allOnes 64) else .fault 4 dev)
      else if fail then .fault (failCause v) (if failCause v = 6 then dev else 0)
      else .word v

/-- Read the grid word of a KIND 3 record at its home. -/
def State.gridWord (s : State) (a : Inst) (n e : Nat) (va : Word) : GridWord :=
  let who : Asker := .grid a.l.serial n e
  if va.toNat % 8 ≠ 0 then .fault 3 0
  else match s.route va with
    | .fenced d => .fault 4 d
    | _ => match s.devWord who a.l.ctx va .load with
      | .ok k => if k / 2 ^ 56 = 2 then s.gridAnswer a n e s.devid (s.newHost a.l.ctx k who va 8 (.load 8)).1
          else .word (s.readKey k 8)
      | .fail c => .fault c 0
      | .wait => .wait (s.devAskQ who a.l.ctx va .load)
      | .remote d => s.gridAnswer a n e d (s.newRemote (queueDie n e) d a.l.ctx who va 8 (.load 8)).1

/-- Take the record at the head of an EXPAND or KIND 4 element to form its grid (R62, R63): one with a
dimension 0 is consumed and the next is taken. -/
def State.takeGrid (s : State) (slot n e : Nat) : Nat → State
  | 0 => s
  | k + 1 =>
    match s.inst? slot with
    | none => s
    | some a =>
      let nd := a.node n
      let q := a.queue n e
      match q.take 1 with
      | ([x], q1) =>
        let w0 := recWord x.r 2
        let s1 := s.modInst slot (fun a => a.putQueue q1)
        let done := { s1 with mem := { s1.mem with
          remote := s1.mem.remote.filter (fun r => r.who != Asker.grid a.l.serial n e) } }
        let form (w : Word) : State :=
          let gx := bitsOf w.toNat 19 0
          let gy := bitsOf w.toNat 39 20
          let gz := bitsOf w.toNat 59 40
          let keep (b : Inst) : Inst := if nd.replay then { b with held := b.held ++ [x] } else b
          if gx = 0 ∨ gy = 0 ∨ gz = 0 then done.takeGrid slot n e k
          else if nd.kind = 4 then
            let id := s.fresh.id
            let sp : Space := { id := id, gx := gx, gy := gy, gz := gz, left := nd.pcount }
            let g : Grid := { node := n, elem := e, record := x, gx := nd.pcount, gy := 1, gz := 1, space := some id }
            done.bumpId.modInst slot (fun b => keep { b with grids := b.grids ++ [g], spaces := b.spaces ++ [sp] })
          else
            let g : Grid := { node := n, elem := e, record := x, gx := gx, gy := gy, gz := gz }
            done.modInst slot (fun b => keep { b with grids := b.grids ++ [g] })
        if s.recPoisoned a x then done.haltWith slot (s.bareFault slot n 15 0 0 0 0)
        else if nd.kind ≠ 3 then form w0
        else match s.gridWord a n e w0 with
          | .word v => form v
          | .wait s2 => s2
          | .fault c d => (done.devClear (.grid a.l.serial n e) a.l.ctx w0).haltWith slot (s.bareFault slot n c 0 0 w0 d)
      | _ => s

/-! ## Offers (R61, R65, R66) -/

/-- Nothing of the instance as a whole holds an offer of the node back. -/
def State.mayOffer (s : State) (a : Inst) (n : Nat) : Bool :=
  let nd := a.node n
  !s.sched.stopped && !s.depWaits a && s.edgesAllow a n
    && (nd.resident == 0 || decide (((s.live a).filter (fun h => h.node == n)).length < nd.resident))

/-- The launch decision of an element (R61). -/
def State.offers (s : State) (a : Inst) (n e : Nat) : Bool :=
  let nd := a.node n
  let q := a.queue n e
  s.mayOffer a n && (a.grids.any (fun g => g.node == n && g.elem == e) || (match nd.kind with
    | 0 => decide (32 * nd.ncrew ≤ q.count)
        || (decide (0 < q.count) && (s.dry a n || (nd.linger != 0 && q.linger)))
    | 1 => decide (0 < q.count)
    | _ => false))

/-- The elements of an instance on a die that hold a record or a grid. -/
def Inst.busyElems (a : Inst) (die : Nat) : List (Nat × Nat) :=
  ((((a.queues.filter (fun q => decide (0 < q.count))).map (fun q => (q.node, q.elem)))
    ++ a.grids.map (fun g => (g.node, g.elem))).eraseDups).filter (fun p => queueDie p.1 p.2 == die)

/-- The head record of an EXPAND or KIND 4 element is to be taken and has not been: an offer that waits for its grid
word (R62). -/
def State.wantsGrid (s : State) (a : Inst) (n e : Nat) : Bool :=
  decide (2 ≤ (a.node n).kind) && s.mayOffer a n && !(a.grids.any (fun g => g.node == n && g.elem == e))

/-- Form the grids of a die that may be offered. -/
def State.formGrids (s : State) (die : Nat) : State :=
  (s.insts.flatMap (fun a => (a.busyElems die).map (fun p => (a.slot, p)))).foldl (fun s p =>
    match s.inst? p.1 with
    | none => s
    | some a =>
      if s.wantsGrid a p.2.1 p.2.2 then
        s.takeGrid p.1 p.2.1 p.2.2 (a.queue p.2.1 p.2.2).count
      else s) s

/-- Lexicographic order of keys. -/
def lexLe : List Nat → List Nat → Bool
  | [], _ => true
  | _ :: _, [] => false
  | x :: xs, y :: ys => decide (x < y) || (x == y && lexLe xs ys)

/-- A candidate of a round (R81): its key in the walk, and the evicted cohort to resume or the offer of an
element. -/
structure Bid where
  key : List Nat
  uid : Option Nat
  slot : Nat
  node : Nat
  elem : Nat

/-- The first instance of a priority's walk: the first slot from the pointer on that holds an offer (R81). -/
def rotStart (slots : List Nat) (ptr : Nat) : Option Nat :=
  ((List.range 64).map (fun i => (ptr + i) % 64)).find? (fun k => slots.contains k)

/-- The offers of a die: slot, node, element, priority. -/
def State.dieOffers (s : State) (die : Nat) : List (Nat × Nat × Nat × Nat) :=
  s.insts.flatMap (fun a => ((a.busyElems die).filter (fun p => s.offers a p.1 p.2)).map
    (fun p => (a.slot, p.1, p.2, s.np a p.1)))

/-- The starting instance of each priority in this round. Each die has a pointer of its own for each priority: the
model's choice (log entry 88). -/
def State.rotStarts (s : State) (die : Nat) (os : List (Nat × Nat × Nat × Nat)) : List (Option Nat) :=
  (List.range 8).map (fun p => rotStart ((os.filter (fun o => o.2.2.2 == p)).map (·.1))
    (SMap.get 0 s.sched.rot (8 * die + p)))

/-- The candidates of a round in the order of R81; resumes of one priority by their time of placement (log
entry 17). -/
def State.candidates (s : State) (die : Nat) : List Bid :=
  let os := s.dieOffers die
  let starts := s.rotStarts die os
  let offer (o : Nat × Nat × Nat × Nat) : Bid :=
    let a := (s.inst? o.1).getD { slot := o.1 }
    let st := ((starts.getD o.2.2.2 none).getD 0)
    { key := [7 - o.2.2.2, 1, (o.1 + 64 - st) % 64, (a.aged.idxOf o.2.1), 4096 - (a.node o.2.1).depth, o.2.1, o.2.2.1]
      uid := none, slot := o.1, node := o.2.1, elem := o.2.2.1 }
  let back (h : Cohort) : Bid :=
    let p := match s.inst? h.inst with | some a => s.np a h.node | none => 0
    { key := [7 - p, 0, h.placedAt], uid := some h.uid, slot := h.inst, node := h.node, elem := h.elem }
  let rs := s.cohorts.filter (fun h => dieOf h.sh.core == die && s.mayResume h)
  sortBy (fun a b => lexLe a.key b.key) (os.map offer ++ rs.map back)

/-! ## Placing (R84, R85) -/

/-- The place of an offer is taken: its reservation, its claim and its place among those asking end
(R86, R88). -/
def State.claimed (s : State) (key : OfferKey) : State :=
  { s with sched := { s.sched with
      resv := s.sched.resv.filter (fun r => r.key != key)
      asks := s.sched.asks.filter (fun r => r != key)
      claims := s.sched.claims.filter (fun c => c.key != key) } }

/-- Place the offer of an element if it fits now (R61, R84). -/
def State.tryPlace (s : State) (die slot n e : Nat) : Option State :=
  match s.inst? slot with
  | none => none
  | some a =>
    let nd := a.node n
    if !s.offers a n e || a.lpArea.isNone then none
    else match s.target die (some (slot, n, e)) none nd.shape with
      | none => none
      | some core =>
        let s := s.claimed (slot, n, e)
        match a.grids.find? (fun g => g.node == n && g.elem == e) with
        | some g =>
          let i := g.next
          let s := s.spawn a n e core [g.record] (i % g.gx) (i / g.gx % g.gy) (i / (g.gx * g.gy)) g.space
          let rest (l : List Grid) : List Grid :=
            if i + 1 < g.gx * g.gy * g.gz then
              l.map (fun x => if x.node == n && x.elem == e then { x with next := i + 1 } else x)
            else l.filter (fun x => !(x.node == n && x.elem == e))
          some (s.modInst slot (fun b => { b with grids := rest b.grids }))
        | none =>
          let (recs, q) := (a.queue n e).take (if nd.kind = 0 then 32 * nd.ncrew else 1)
          let s := s.modInst slot (fun b =>
            let b := b.putQueue q
            if nd.replay then { b with held := b.held ++ recs } else b)
          if recs.any (s.recPoisoned a) then some (s.haltWith slot (s.bareFault slot n 15 0 0 0 0))
          else some (s.spawn a n e core recs 0 0 0 none)

/-- Resume an evicted cohort if it fits now (R89). -/
def State.tryResume (s : State) (die uid : Nat) : Option State :=
  match s.cohort? uid with
  | none => none
  | some h =>
    if !s.mayResume h then none
    else (s.target die none (some h.sh.core) h.sh).map (fun core => s.resume h core)

/-- The state of the walk (R80): the machine, how many were placed, the offers walked and those placed. -/
structure Walked where
  s : State
  n : Nat := 0
  walked : List OfferKey := []
  placed : List OfferKey := []

/-- Place cohorts of one element, up to the round's limit: several only of a grid (R80). -/
def placeMany (die slot n e : Nat) : Nat → Walked → Walked
  | 0, w => w
  | k + 1, w =>
    if 8 ≤ w.n then w
    else match w.s.tryPlace die slot n e with
      | none => w
      | some s1 =>
        let grid : Bool := match s1.inst? slot with
          | some a => a.grids.any (fun g => g.node == n && g.elem == e)
          | none => false
        let w1 := { w with s := s1, n := w.n + 1, placed := (slot, n, e) :: w.placed }
        if grid then placeMany die slot n e k w1 else w1

/-- Walk one candidate. A resume counts among the 8 cohorts of the round (R80) and renews the time of placement that
R87 orders by, but is no placement of its node for R83: the model's choice (log entry 103). -/
def walkOne (die : Nat) (w : Walked) (c : Bid) : Walked :=
  if 8 ≤ w.n then w
  else match c.uid with
    | some u => match w.s.tryResume die u with
      | some s1 => { w with s := s1, n := w.n + 1 }
      | none => w
    | none => placeMany die c.slot c.node c.elem 8 { w with walked := (c.slot, c.node, c.elem) :: w.walked }

/-! ## Reservations (R86) -/

/-- The target that an offer's reservation falls on. -/
def State.resvTarget (s : State) (die : Nat) (sh : Shape) : Option Nat :=
  let ws := s.windows
  let ok := (dieTargets die sh.span).filter (fun c =>
    !(s.sched.resv.any (fun r => meets sh.span c r.span r.core)) && s.fits ws (fun _ => false) sh c)
  let occ (c : Nat) : Nat := ((targetCores sh.span c).map (fun k => 64 - (room ws (s.holders k) k).1)).sum
  ok.foldl (fun best c => match best with
    | none => some c
    | some b => if occ c < occ b then some c else some b) none

/-- Offers that have passed the threshold take free reservations in order (R86). -/
def State.serveAsks (s : State) (die : Nat) : State :=
  (s.sched.asks.filter (fun k => queueDie k.2.1 k.2.2 == die)).foldl (fun s k =>
    match s.inst? k.1 with
    | none => s
    | some a =>
      let sh := (a.node k.2.1).shape
      if 8 ≤ (s.sched.resv.filter (fun r => dieOf r.core == die)).length then s
      else match s.resvTarget die sh with
        | none => s
        | some c => { s with sched := { s.sched with
            resv := s.sched.resv ++ [⟨c, sh.span, k⟩]
            asks := s.sched.asks.filter (fun x => x != k) } }) s

/-- RESERVATION_TAKE (R86): after 4,096 consecutive rounds in which it was walked and not placed. -/
def execReservationTake (i node elem : Nat) (s : State) : Host.Outcome State Fault Refusal :=
  .next (match s.inst? i with
    | none => s
    | some a =>
      let ripe := a.offers.any (fun o => o.node == node && o.elem == elem && decide (4096 ≤ o.walked))
      let key := (i, node, elem)
      if !ripe || s.sched.resv.any (fun r => r.key == key) || s.sched.asks.contains key then s
      else ({ s with sched := { s.sched with asks := s.sched.asks ++ [key] } }).serveAsks (queueDie node elem))

/-! ## Deadlock and completion of an instance (R74, R75) -/

/-- A crew's wait counts as internal, and it does not hold now (R75). -/
def State.inWait (s : State) (h : Cohort) (c : Crew) : Bool :=
  c.gone || (match c.w.kind with
    | .emit n e => (match s.inst? h.inst with
      | some a => !s.canAccept a n e
      | none => false)
    | .emitRemote => !s.outRoom (dieOf (h.coreOf c.idx))
    | .waitpred => (match s.inst? h.inst with
      | some a => !s.predsDone a h.node
      | none => false)
    | .barrier b => h.bars.any (fun x => x.n == b && x.arr.contains c.idx)
    | .sp off full => h.full off != full
    | .regclm _ => true
    | _ => false)

/-- An offer lacks resources that would be free on some target of its shape if the instance's own cohorts there were
gone (R75); a lane-private area, whose want holds an offer back in the manner of R84 (R235), is such a resource, freed
by whichever target's cohort holds one (log entry 56). -/
def State.selfHeld (s : State) (a : Inst) (die n : Nat) : Bool :=
  let sh := (a.node n).shape
  let ts := dieTargets die sh.span
  let area := a.lpArea.isSome
  let ws := s.windows
  let freed := (s.live a).any (fun h => h.lp.isSome && (h.ev == .placed || h.ev == .saving))
  ts.all (fun c => !(area && s.fits ws (fun _ => true) sh c))
    && (area || freed) && ts.any (s.fits ws (fun h => h.serial != a.l.serial) sh)

/-- The instance waits on nothing but itself (R75). An offer that only a checkpoint holds back counts as placeable. The
outbound records that count are the instance's own: the model's choice (log entry 56). -/
def State.stuckNow (s : State) (a : Inst) : Bool :=
  let live := s.live a
  let r : State := { s with sched := { s.sched with stopped := false } }
  !live.isEmpty && live.all (fun h => (s.crewsOf h.uid).all (fun c => s.inWait h c))
    && [0, 1].all (fun die => (a.busyElems die).all (fun p => !r.wantsGrid a p.1 p.2
      && (!r.offers a p.1 p.2 || s.selfHeld a die p.1)))
    && a.ctrs.all (fun k => !k.pending || !s.canAccept a k.r.node k.r.aidx)
    && s.fab.outbound.all (fun o => o.serial != a.l.serial)
    && s.cohorts.all (fun h => h.serial != a.l.serial || s.eng.items.all (fun i => i.uid != h.uid))
    && s.eng.wdqs.all (fun w => live.all (fun h => h.uid != w.uid))

/-- What a round sees of each instance's deadlock: since when it has lasted. -/
def State.watchStuck (s : State) : State :=
  { s with insts := s.insts.map (fun a => { a with
      stuck := if s.stuckNow a then some (a.stuck.getD s.clk.ns) else none }) }

/-- GRAPHDEADLOCK (R75): after 10 µs without a break the instance halts. -/
def execGraphdeadlock (i : Nat) (s : State) : Host.Outcome State Fault Refusal :=
  .next (match s.inst? i with
    | none => s
    | some a => match a.stuck with
      | none => s
      | some t =>
        if s.clk.ns < t + 10000 || !s.stuckNow a then s
        else
          let low := ((s.live a).map (·.node)).foldl min 4095
          s.haltWith i (s.bareFault i low 10 0 0 0 0))

/-- The conditions of R74. -/
def State.mayComplete (s : State) (a : Inst) : Bool :=
  !s.depWaits a && a.queues.all (fun q => q.count == 0) && (s.live a).isEmpty && a.grids.isEmpty
    && s.fab.outbound.all (fun o => o.serial != a.l.serial) && a.ctrs.isEmpty
    && s.cohorts.all (fun h => h.serial != a.l.serial || s.eng.items.all (fun x => x.uid != h.uid))

/-- Every store of the instance that its completion word is ordered after has been performed, as by a release of device
scope (R74, R112). -/
def State.instStored (s : State) (a : Inst) : Bool :=
  s.mem.stores.all (fun e => e.serial != a.l.serial || e.far) && s.mem.log.all (fun e => e.serial != a.l.serial)

/-- The instance has completed (R74): until its completion word is written it keeps its slot and its tag, and takes
no record any longer (log entry 108). -/
def Inst.complete (a : Inst) : Inst := { a with l := { a.l with ending := true } }

/-- INSTANCE_COMPLETE (R74, R369): the instance completes, its completion value is written, then the host is
interrupted. -/
def execInstanceComplete (i : Nat) (s : State) : Host.Outcome State Fault Refusal :=
  .next (match s.inst? i with
    | none => s
    | some a =>
      let who : Asker := .completion a.l.serial
      if !(a.l.ending || s.mayComplete a) || !s.instStored a || s.mem.remote.any (fun r => r.who == who) then s
      else
        let s := s.modInst i Inst.complete
        match s.devWord who a.l.ctx a.l.compVa .store with
        | .ok k =>
          if k / 2 ^ 56 ≠ 2 then (s.perform k (leBytes 8 a.l.compVal.toNat)).completionWritten a.l.serial
          else (s.newHost a.l.ctx k who a.l.compVa 8 (.store 8 [a.l.compVal])).1
        | .fail c => (s.devClear who a.l.ctx a.l.compVa).completionFailed a.l.serial c
        | .wait => s.devAskQ who a.l.ctx a.l.compVa .store
        | .remote d => (s.newRemote 0 d a.l.ctx who a.l.compVa 8 (.store 8 [a.l.compVal])).1)

/-! ## Rounds (R80 to R83) -/

/-- Claims that no longer stand are dropped (R88): the claimant's instance is gone, the save of the next cohort
was given up, or the claimant offers nothing. -/
def State.dropClaims (s : State) : State :=
  { s with sched := { s.sched with
      claims := s.sched.claims.filter (fun c =>
        match s.inst? c.key.1 with
        | none => false
        | some a => (match c.uids with
          | [] => s.offers a c.key.2.1 c.key.2.2
          | u :: _ => (match s.cohort? u with
            | some h => h.ev == .saving
            | none => false))) } }

/-- Count the rounds of an instance's offers on a die (R83, R86, R87): `held` are the offers of the round. The rounds
of both dies add to one count of a node: the model's choice (log entry 89). -/
def Inst.countRound (a : Inst) (die ns : Nat) (held walked placed : List OfferKey) : Inst :=
  let mine := (held.filter (fun k => k.1 == a.slot)).map (·.2)
  let fresh (p : Nat × Nat) : Offer :=
    let o := (a.offers.find? (fun o => o.node == p.1 && o.elem == p.2)).getD { node := p.1, elem := p.2, since := ns }
    let k := (a.slot, p.1, p.2)
    if placed.contains k then { o with walked := 0, since := ns }
    else if walked.contains k then { o with walked := o.walked + 1 } else { o with walked := 0 }
  let nodes := (mine.map (·.1)).eraseDups
  let hit (n : Nat) : Bool := placed.any (fun k => k.1 == a.slot && k.2.1 == n)
  { a with
    offers := a.offers.filter (fun o => queueDie o.node o.elem != die) ++ mine.map fresh
    passed := nodes.foldl (fun m n => SMap.set 0 m n (if hit n then 0 else SMap.get 0 m n + 1)) a.passed
    aged := a.aged.filter (fun n => !hit n) }

/-- PLACEMENT_ROUND (R80, R81): placements of the round before take effect, grids are formed, candidates are walked in order, at most 8 cohorts are placed
or resumed; pointers and counts advance. Crews that wait in YIELD go on (R366), and places
that other devices asked for are set aside (R72). -/
def execPlacementRound (die : Nat) (s : State) : Host.Outcome State Fault Refusal :=
  .next (if 2 ≤ die then s else
    let s := (((s.land die).formGrids die).dropClaims).serveAsks die
    let os := s.dieOffers die
    let starts := s.rotStarts die os
    let w := (s.candidates die).foldl (walkOne die) { s := s }
    let held := os.map (fun o => (o.1, o.2.1, o.2.2.1))
    let s := w.s
    let rot := (List.range 8).foldl (fun m p => match starts.getD p none with
      | some k => SMap.set 0 m (8 * die + p) ((k + 1) % 64)
      | none => m) s.sched.rot
    let awake (c : Crew) : Crew := match c.w.kind, s.cohort? c.uid with
      | .yield, some h => if dieOf (h.coreOf c.idx) == die && h.ev == .placed
          then { c with w := { c.w with kind := .none } } else c
      | _, _ => c
    let s := { s with
      insts := s.insts.map (fun (a : Inst) => a.countRound die s.clk.ns held w.walked w.placed)
      crews := s.crews.map awake
      sched := { s.sched with rot := rot }
      clk := { s.clk with rounds := s.clk.rounds.set die (s.clk.rounds.getD die 0 + 1) } }
    s.serveGrants.watchStuck)

/-- NODE_AGES (R83): after 64 rounds with an offer and no placement. -/
def execNodeAges (i node : Nat) (s : State) : Host.Outcome State Fault Refusal :=
  .next (s.modInst i (fun a =>
    if 64 ≤ SMap.get 0 a.passed node && !a.aged.contains node then { a with aged := a.aged ++ [node] } else a))

/-- LINGER_EXPIRY (R61): LINGER cycles have passed since the element's last arrival. -/
def execLingerExpiry (i node elem : Nat) (s : State) : Host.Outcome State Fault Refusal :=
  .next (s.modInst i (fun a =>
    let q := a.queue node elem
    let l := (a.node node).linger
    if l ≠ 0 ∧ 0 < q.count ∧ q.last + l ≤ s.clk.cycle then a.putQueue { q with linger := true } else a))

/-! ## Eviction (R87, R88, R222) -/

/-- The eligible cohorts of a target in the order in which they go (R87). -/
def State.victims (s : State) (span : Bool) (core p : Nat) : List Cohort :=
  let prio (h : Cohort) : Nat := match s.inst? h.inst with
    | some a => s.np a h.node
    | none => 0
  sortBy (fun (a b : Cohort) => decide (prio a < prio b) || (prio a == prio b && decide (b.placedAt ≤ a.placedAt)))
    (s.cohorts.filter (fun h => meets span core h.sh.span h.sh.core && s.eligible h p))

/-- The shortest prefix of the victims of a target whose removal makes the shape fit (R87). -/
def State.shortestFor (s : State) (ws : List (Nat × Nat)) (sh : Shape) (core p : Nat) : Option (List Nat) :=
  let v := (s.victims sh.span core p).map (·.uid)
  ((List.range (v.length + 1)).find? (fun k =>
    s.fits ws (fun h => !(v.take k).contains h.uid) sh core)).map v.take

/-- The choice for a claimant: the target with the shortest prefix, then the lowest (R87). -/
def State.evictChoice (s : State) (die : Nat) (key : OfferKey) (sh : Shape) (p : Nat) :
    Option (Nat × List Nat) :=
  let mine := s.sched.resv.filter (fun r => key == r.key)
  let ts := if mine.isEmpty then dieTargets die sh.span else mine.map (·.core)
  let ws := s.windows
  let ok := (ts.filter (fun c => s.accepts (some key) none sh.span c)).filterMap (fun c =>
    (s.shortestFor ws sh c p).map (fun l => (c, l)))
  ok.foldl (fun best x => match best with
    | none => some x
    | some b => if x.2.length < b.2.length then some x else some b) none

/-- Begin the save of the first cohort of a list, if it is still eligible (R88): no crew of it issues from
here on. -/
def State.beginSave (s : State) (p : Nat) : List Nat → Option State
  | [] => some s
  | u :: _ => match s.cohort? u with
    | some h => if s.eligible h p then some (s.modCohort u (fun x => { x with ev := .saving, back := false })) else none
    | none => none

/-- The priority of a claimant. -/
def State.claimPrio (s : State) (k : Claim) : Nat := match s.inst? k.key.1 with
  | some a => s.np a k.key.2.1
  | none => 0

/-- EVICTION_CLAIM (R87): the first offer in the order of R81 that has not been placed for 20 µs and that some
choice of cohorts helps. -/
def execEvictionClaim (die : Nat) (s : State) : Host.Outcome State Fault Refusal :=
  .next (
    let s := s.dropClaims
    if s.sched.claims.any (fun c => c.die == die) then s
    else
      let late (c : Bid) : Option Claim :=
        match c.uid, s.inst? c.slot with
        | none, some a =>
          let old := a.offers.any (fun o => o.node == c.node && o.elem == c.elem && decide (o.since + 20000 ≤ s.clk.ns))
          let key := (c.slot, c.node, c.elem)
          if !old || a.lpArea.isNone then none
          else match s.evictChoice die key (a.node c.node).shape (s.np a c.node) with
            | some (t, u :: us) => some ⟨die, key, t, u :: us⟩
            | _ => none
        | _, _ => none
      match (s.candidates die).findSome? late with
      | none => s
      | some k => match s.beginSave (s.claimPrio k) k.uids with
        | none => s
        | some s1 => { s1 with sched := { s1.sched with claims := s1.sched.claims ++ [k] } })

/-- EVICTION_SAVE_COMPLETE (R222, R223, R88): when the waits of step 2 are over, the save is made; then the next
cohort of the claim begins its own. -/
def execEvictionSaveComplete (u : Nat) (s : State) : Host.Outcome State Fault Refusal :=
  .next (match s.cohort? u with
    | none => s
    | some h =>
      if h.ev ≠ .saving then s
      else
        let s1 := s.saveNow h
        let gone : Bool := match s1.cohort? u with
          | some x => (match x.ev with | .evicted _ => true | _ => false)
          | none => true
        if !gone then s1
        else match s1.sched.claims.find? (fun c => c.uids.head? == some u) with
          | none => s1
          | some c =>
            let rest := c.uids.drop 1
            let put (s : State) (l : List Claim) : State := { s with sched := { s.sched with claims := l } }
            match s1.beginSave (s1.claimPrio c) rest with
            | some s2 => put s2 (s2.sched.claims.map (fun (x : Claim) => if x = c then { c with uids := rest } else x))
            | none => put s1 (s1.sched.claims.filter (fun (x : Claim) => x ≠ c)))

/-! ## Run limits (R90, R307) -/

/-- RUNLIMIT_EXPIRY (R90): the lowest crew that has not exited takes RUNLIMIT at once; a cohort whose crews have
all exited aborts without a handler (R307). A crew whose unit is under way, its accesses out, takes it after that unit,
as any fault before its next (R212). -/
def execRunlimitExpiry (u : Nat) (s : State) : Host.Outcome State Fault Refusal :=
  .next (match s.cohort? u with
    | none => s
    | some h =>
      let n := s.nodeOf h
      let here := h.ev == .placed || h.ev == .saving
      let aborting := (match h.halt with | some k => k.abort | none => false)
      if !here || aborting || decide (h.run < 1024 * n.runlimit) then s
      else match (s.crewsOf u).find? (fun c => !c.g.exited) with
        | none =>
          s.startAbort u { crew := 0, trap := { cause := 16, pc := 0, resume := 0 }, abort := true }
        | some c =>
          let t : Trap := { cause := 16, pc := c.r.pc, resume := c.r.pc }
          let c1 := { c with w := { c.w with pages := c.w.pages.filter (fun p => pageDev p != s.devid) } }
          if c.w.kind = .none && !c.w.own.isEmpty then s
          else match h.halt with
          | some k =>
            if k.crew = c.idx then s.takeTrap c1 h t
            else if handlerRuns n h c 16 then
              let s := s.putCrew ((c1.setFault t).enter t n.handler)
              s.modCohort u (fun x => { x with run := 0, expired := true, ev := .placed })
            else (s.putCrew (c1.setFault t)).startAbort u
              { crew := c.idx, trap := t, abort := true, hnd := c.g.hnd, xm := c.m.xm, msd := c.m.msd }
          | none => s.takeTrap c1 h t)

/-! ## Halts, the compactor, wakes -/

/-- FREEZE_POINT_REACHED (R214): a crew that was told to halt stops. -/
def execFreezePointReached (u c : Nat) (s : State) : Host.Outcome State Fault Refusal :=
  .next (match s.crew? u c with
    | none => s
    | some d =>
      if !d.g.stopping || d.g.moving then s
      else
        let aborting := ((s.cohort? u).bind (·.halt)).any (·.abort)
        let e := if aborting then d.abandon else d
        (s.putCrew { e with g := { e.g with stopping := false, frozen := true } }).settle u)

/-- COMPACTOR_MOVE_DONE (R36): the crew may issue again. -/
def execCompactorMoveDone (u c : Nat) (s : State) : Host.Outcome State Fault Refusal :=
  .next (s.modCrew u c (fun d => { d with g := { d.g with moving := false } }))

/-- EMIT_WAKE (R54, R57, R73): a blocked EMIT goes on with its next record; when the last one is sent, the
crew's next turn ends the unit. Records for the element on which it has blocked go one wake after another. -/
def execEmitWake (u c : Nat) (s : State) : Host.Outcome State Fault Refusal :=
  .next (match s.crew? u c, s.cohort? u with
    | some d, some h =>
      let aborting := (match h.halt with | some k => k.abort | none => false)
      if h.ev ≠ .placed || aborting then s
      else match d.w.kind with
        | .emit _ _ | .emitRemote => State.emitGo (fun s c _ => s.putCrew { c with
            w := { c.w with kind := .none, emits := [] } }) s d h d.w.emits
        | _ => s
    | _, _ => s)

/-- COUNTER_PENDING_ENQUEUE (R70). -/
def execCounterPendingEnqueue (i ctr : Nat) (s : State) : Host.Outcome State Fault Refusal :=
  .next (match (s.inst? i).bind (fun a => a.ctrs.find? (fun k => k.n == ctr)) with
    | some k => if k.pending then s.fire i ctr else s
    | none => s)

/-! ## Spill and refill (R58) -/

/-- The queue of a bank with the most Loam records; ties by node, then element (R58), then the instance's slot: the
model's choice (log entry 86). -/
def State.spillPick (s : State) (b : Nat) : Option (Nat × Queue) :=
  let qs := s.insts.flatMap (fun a => (a.queues.filter (fun q => bankOf q.node q.elem == b)).map (fun q => (a.slot, q)))
  qs.foldl (fun best x => match best with
    | none => if x.2.loam.isEmpty then none else some x
    | some y =>
      if lexLe [y.2.loam.length, x.2.node, x.2.elem, x.1] [x.2.loam.length, y.2.node, y.2.elem, y.1]
        then some x else some y) none

/-- The Silt block that a spill of a queue takes: a free one beside those set aside for other devices (R72; log entry
98), for this queue's own places too, which lie behind its Silt part from now on. -/
def State.spillBlock (s : State) (a : Inst) (q : Queue) : Option Nat :=
  if s.siltOwed a q.node q.elem + blocksFor (s.granted a q.node q.elem) (a.lastRoom q) < a.freeBlocks then a.freeBlock
  else none

/-- Move blocks of 64 records until the bank holds 24,576 or fewer or no Silt block is free: in the ring of the
instance whose queue is picked, the model's choice (log entry 86). -/
def State.spill (s : State) (b : Nat) : Nat → State
  | 0 => s
  | k + 1 =>
    if s.bankCount b ≤ 24576 then s
    else match s.spillPick b with
      | none => s
      | some (slot, q) => match (s.inst? slot).bind (fun a => s.spillBlock a q) with
        | none => s
        | some f =>
          let keep := q.loam.length - 64
          let moved := (q.loam.drop keep).mapIdx (fun i x => { x with blk := some f, pos := i })
          let q1 := { q with loam := q.loam.take keep, silt := moved :: q.silt }
          (moved.foldl (fun s x => s.siltWrite slot x) (s.modInst slot (fun a => a.putQueue q1))).spill b k

/-- LOAM_SPILL (R58): a bank above 28,672 records. -/
def execLoamSpill (die cluster : Nat) (s : State) : Host.Outcome State Fault Refusal :=
  .next (
    let b := 12 * die + cluster
    if s.bankCount b ≤ 28672 then s else s.spill b (s.bankCount b))

/-- LOAM_REFILL (R58). A poisoned record in the block halts the instance (R244). -/
def execLoamRefill (i node elem : Nat) (s : State) : Host.Outcome State Fault Refusal :=
  .next (match s.inst? i with
    | none => s
    | some a =>
      let nd := a.node node
      let q := a.queue node elem
      let f := if nd.kind = 0 then 32 * nd.ncrew else 1
      match q.silt with
      | [] => s
      | blk :: rest =>
        if q.loam.length < f ∧ s.bankCount (bankOf node elem) ≤ 28672 then
          if blk.any (s.recPoisoned a) then s.haltWith i (s.bareFault i node 15 0 0 0 0) else
          let q1 := { q with loam := q.loam ++ blk.map (fun x => { x with blk := none }), silt := rest }
          s.modInst i (fun a => a.putQueue q1)
        else s)

end Sys2Proof.Machine
end

