-- ==== Sys2Proof/Machine/FabricEvents.lean ====
section
/-! DEFINITION. Events of the fabric: records between devices and their reservations (R71 to R73, R204), the
work distributor's answers (R195, R364), lanes and admission (R202, R204). -/

namespace Sys2Proof.Machine

/-! ## The target of a record (R71, R72) -/

/-- A record has been enqueued; the source may forget it. One sent under a grant uses up a place, of the Loam bank
first. -/
def State.recTaken (s : State) (src die sn tag : Nat) (granted : Bool) (r : Record) : State :=
  let use : List Grant → List Grant := fun l =>
    let mine (g : Grant) : Bool := !g.out && g.src == src && g.tag == tag && g.node == r.node && g.elem == r.aidx
    match l.find? (fun g => mine g && !g.silt) <|> l.find? mine with
    | some g => if granted then
        (l.map (fun x => if x.id == g.id then { x with n := x.n - 1 } else x)).filter (fun x => x.out || x.n != 0)
        else l
    | none => l
  ({ s with fab := { s.fab with
    grants := use s.fab.grants
    seen := (src, die, sn) :: s.fab.seen
    dropped := s.fab.dropped.filter (fun d => d != (src, tag, r.node, r.aidx)) } }).send (.ack src die sn)

/-- REMOTE_RECORD_ARRIVAL (R71, R72, R204): enqueued, dropped or refused. One sent under a grant is never
dropped; after a drop the stream's droppable records are dropped too, so that the order of R73 holds. -/
def execRemoteRecordArrival (src die sn tag : Nat) (granted : Bool) (r : Record) (s : State) :
    Host.Outcome State Fault Refusal :=
  .next (
    if s.fab.seen.contains (src, die, sn) then s.send (.ack src die sn)
    else match s.tagged tag with
      | none => s.send (.refuse src die sn)
      | some a =>
        if refused a r then s.send (.refuse src die sn)
        else
          let key := (src, tag, r.node, r.aidx)
          let r1 := { r with remote := true }
          let room := if !granted && s.fab.dropped.contains key then none else s.enqueue? a.slot r1 (!granted)
          match room with
          | some s1 => s1.recTaken src die sn tag granted r1
          | none =>
            if granted then s
            else ({ s with fab := { s.fab with
              dropped := if s.fab.dropped.contains key then s.fab.dropped else key :: s.fab.dropped } }).send
                (.drop src die sn))

/-- RESERVATION_REQUEST (R72). -/
def execReservationRequest (src tag node elem n : Nat) (s : State) : Host.Outcome State Fault Refusal :=
  .next (if n = 0 then s else
    ({ s with fab := { s.fab with asks := s.fab.asks ++ [Ask.mk src tag node elem n] } }).serveGrants)

/-! ## The source of a record (R71 to R73) -/

/-- A record of the outbound area, by its number. -/
def State.outRec? (s : State) (id : Nat) : Option OutRec := s.fab.outbound.find? (fun o => o.id == id)

/-- Take a record out of the outbound area. -/
def State.outGone (s : State) (id : Nat) : State :=
  { s with fab := { s.fab with outbound := s.fab.outbound.filter (fun o => o.id != id) } }

/-- REMOTE_RECORD_ACK (R72): its place in the outbound area is free. -/
def execRemoteRecordAck (id : Nat) (s : State) : Host.Outcome State Fault Refusal := .next (s.outGone id)

/-- REMOTE_RECORD_REFUSED (R71): the source instance halts with EDGE, naming the device and the node. -/
def execRemoteRecordRefused (id : Nat) (s : State) : Host.Outcome State Fault Refusal :=
  .next (match s.outRec? id with
    | none => s
    | some o =>
      let s1 := s.outGone id
      match s1.instOf o.serial with
      | none => s1
      | some a => s1.refuseHalt a.slot o.dev o.r.node)

/-- DROP_NOTICE (R72): the record is held from here on, and a reservation is asked for. -/
def execDropNotice (id : Nat) (s : State) : Host.Outcome State Fault Refusal :=
  .next (match s.outRec? id with
    | none => s
    | some o =>
      if o.held then s
      else
        let first := (s.heldFor o.dev o.tag o.r.node o.r.aidx).isEmpty
        let s1 := { s with fab := { s.fab with outbound := s.fab.outbound.map (fun (x : OutRec) =>
          if x.id == id then { x with held := true, granted := false } else x) } }
        if first then s1.askFor o.dev o.tag o.r.node o.r.aidx else s1)

/-- RESERVATION_GRANT (R72): held records go out, in emit order, under the grant. -/
def execReservationGrant (dev tag node elem n : Nat) (s : State) : Host.Outcome State Fault Refusal :=
  .next (
    let go := (s.heldFor dev tag node elem).take n
    let ids := go.map (·.id)
    let g : Grant := { id := s.fresh.id, out := true, src := dev, tag := tag, node := node, elem := elem
                       n := n - go.length, until_ := s.clk.ns + 1000 * s.host.fw.resTime }
    let s1 := s.bumpId
    let s2 := { s1 with fab := { s1.fab with
      grants := s1.fab.grants ++ [g]
      outbound := s1.fab.outbound.map (fun (o : OutRec) =>
        if ids.contains o.id then { o with held := false, granted := true } else o) } }
    go.foldl (fun s o => s.sendOut { o with held := false, granted := true }) s2)

/-- RESERVATION_EXPIRY (R72): places not used are released; records still held ask again. -/
def execReservationExpiry (id : Nat) (s : State) : Host.Outcome State Fault Refusal :=
  .next (match s.fab.grants.find? (fun g => g.id == id) with
    | none => s
    | some g =>
      if s.clk.ns < g.until_ then s
      else
        let s1 := { s with fab := { s.fab with grants := s.fab.grants.filter (fun x => x.id != id) } }
        if g.out then s1.askFor g.src g.tag g.node g.elem else s1.serveGrants)

/-! ## The work distributor (R195, R364) -/

/-- The answer for the next tile of a space: its grid word, or the end token (R62, R195). -/
def Space.answer (p : Space) : Word :=
  let i := p.next
  if i < p.gx * p.gy * p.gz then
    BitVec.ofNat 64 (i % p.gx + i / p.gx % p.gy * 2 ^ 20 + i / (p.gx * p.gy) * 2 ^ 40)
  else BitVec.allOnes 64

/-- WDQ_ANSWER (R364): the distributor takes the next tile and writes the word, full; the answers of one crew
come in issue order. -/
def execWdqAnswer (id : Nat) (s : State) : Host.Outcome State Fault Refusal :=
  .next (match s.eng.wdqs.find? (fun w => w.id == id) with
    | none => s
    | some w =>
      if s.eng.wdqs.any (fun x => x.uid == w.uid && x.idx == w.idx && decide (x.id < w.id)) then s
      else
        let v := (((s.insts.flatMap (·.spaces)).find? (fun p => p.id == w.space)).map Space.answer).getD (BitVec.allOnes 64)
        let step (p : Space) : Space := if p.id == w.space then { p with next := p.next + 1 } else p
        let s1 := { s with
          insts := s.insts.map (fun (a : Inst) => { a with spaces := a.spaces.map step })
          eng := { s.eng with wdqs := s.eng.wdqs.filter (fun x => x.id != id) } }
        (s1.completeWord w.uid w.off v).afterItem w.uid)

/-! ## Ports and admission (R202 to R204) -/

/-- The widest of x4, x2 and x1 that a number of healthy lanes supports (R204). -/
def widest (n : Nat) : Nat := if 4 ≤ n then 4 else if 2 ≤ n then 2 else n

/-- A port has gone down (R204): it leaves the route masks of its die, requests that left by it get no answer, and
unacknowledged records that were sent by it go out again. -/
def State.portDown (s : State) (port : Nat) : State :=
  let cut : SMap Nat := s.fab.routes.filterMap (fun (e : Nat × Nat) =>
    let m := if e.1 / 1024 = port / 12 && bitOf e.2 (port % 12) then e.2 - 2 ^ (port % 12) else e.2
    if m = 0 then none else some (e.1, m))
  let s := { s with
    fab := { s.fab with routes := cut }
    mem := { s.mem with remote := s.mem.remote.map (fun (r : Remote) => if r.port == some port then { r with lost := true } else r) } }
  (s.fab.outbound.filter (fun (o : OutRec) => !o.held && o.port == some port)).foldl State.sendOut s

/-- LANE_FAILURE (R204): the port retrains to the widest width of its healthy lanes; one with none goes down. -/
def execLaneFailure (port lane : Nat) (s : State) : Host.Outcome State Fault Refusal :=
  .next (match s.fab.ports[port]? with
    | none => s
    | some p =>
      let healthy := p.lanes.filter (fun l => l != lane)
      let w := min p.width (widest healthy.length)
      let s1 := { s with fab := { s.fab with ports := s.fab.ports.set port { lanes := healthy, width := w } } }
      if w ≠ 0 ∨ p.width = 0 then s1 else s1.portDown port)

/-- DEVICE_ADMIT (R202): a device with a route is admitted; it is no longer fenced, and its stream numbers
begin again. -/
def execDeviceAdmit (dev : Nat) (s : State) : Host.Outcome State Fault Refusal :=
  .next (if dev = s.devid || decide (1024 ≤ dev) || !s.reachable dev || s.fab.admitted.contains dev then s
    else { s with fab := { s.fab with
      admitted := s.fab.admitted ++ [dev]
      fenced := s.fab.fenced.filter (fun d => d != dev)
      seen := s.fab.seen.filter (fun x => x.1 != dev)
      dropped := s.fab.dropped.filter (fun x => x.1 != dev) } })

end Sys2Proof.Machine
end

