-- ==== Sys2Proof/Machine/Walker.lean ====
section
/-! DEFINITION. The walker and the host queues (R228 to R232, R237, R238, R369): which queue is visited next, the
packets of a queue, the words they name, malformed packets. -/

namespace Sys2Proof.Machine

/-! ## Run lists (R228 to R230) -/

/-- The walker runs: bring-up has reached step 7 (R243). -/
def State.walkerOn (s : State) : Bool := s.host.fw.boot == 8

/-- STATE of a queue (R228). -/
def State.qState (s : State) (q : Word) : Nat := bitsOf (s.qsbWord q 4) 39 32
/-- RPTR of a queue. -/
def State.qRptr (s : State) (q : Word) : Nat := s.qsbWord q 4 % 2 ^ 32
/-- PROC of a queue. -/
def State.qProc (s : State) (q : Word) : Nat := bitsOf (s.qsbWord q 2) 47 32
/-- NEXT of a queue. -/
def State.qNext (s : State) (q : Word) : Word := BitVec.ofNat 64 (s.qsbWord q 0 / 64 * 64)
/-- MARK of a queue: a splice is in progress on NEXT (R230). -/
def State.qMark (s : State) (q : Word) : Bool := bitOf (s.qsbWord q 0) 0

/-- Set STATE and RPTR. -/
def State.setQueue (s : State) (q : Word) (st rptr : Nat) : State :=
  s.setQsbWord q 4 (rptr % 2 ^ 32 + st * 2 ^ 32 + s.qsbWord q 4 / 2 ^ 40 * 2 ^ 40)

/-- A queue holds a packet and is not halted (R229); one that a malformed packet has halted stays so until its
QSB is removed and inserted again, whatever STATE says (R238). -/
def State.qWork (s : State) (q : Word) : Bool :=
  s.qState q != 2 && s.qRptr q != s.qsbWord q 3 % 2 ^ 32 && !s.host.halted.any (fun e => e.1 == q)

/-- The QSBs of a run list from one on. -/
def State.chain (s : State) (q : Word) : Nat → List Word
  | 0 => []
  | k + 1 => if q = 0 then [] else q :: s.chain (s.qNext q) k

/-- The QSBs of run list `p`. -/
def State.runList (s : State) (p : Nat) : List Word := s.chain (s.host.heads.getD p 0) 65536

/-- Run list `p` holds a queue with a packet that can be processed. -/
def State.active (s : State) (p : Nat) : Bool :=
  (s.runList p).any (fun q => s.qWork q && s.qState q != 1 && !s.host.stalled.contains q)

/-- After the pass over list `p`: the highest list above it that holds work, else the next lower (R229). -/
def State.nextList (s : State) (p : Nat) : Nat :=
  match ((List.range 8).reverse).find? (fun r => decide (p < r) && s.active r) with
  | some r => r
  | none => if p = 0 then 7 else p - 1

/-- What the walker meets in a chain of QSBs: a queue with work, the end, or a QSB whose NEXT it has to read
again since a splice is in progress there (R230). -/
inductive Scan where
  | found (q : Word)
  | ended
  | marked
deriving DecidableEq, Repr

/-- Follow a chain to the next queue with work. -/
def State.scan (s : State) (q : Word) : Nat → Scan
  | 0 => .ended
  | k + 1 =>
    if q = 0 then .ended
    else if s.qWork q then .found q
    else if s.qMark q then .marked
    else s.scan (s.qNext q) k

/-- Where the walker goes: to a queue of a list, with the generations WGEN then; nowhere, for want of work; or it
waits at a MARK. -/
inductive Course where
  | to (q : Word) (p : Nat) (wgen : List Nat)
  | idle
  | held
deriving DecidableEq, Repr

/-- Where the walker goes after the pass over list `p` has ended. -/
def State.sweep (s : State) (p : Nat) (wgen : List Nat) : Nat → Course
  | 0 => .idle
  | k + 1 =>
    let wgen := wgen.set p (wgen.getD p 0 + 1)
    let r := s.nextList p
    match s.scan (s.host.heads.getD r 0) 65536 with
    | .found q => .to q r wgen
    | .marked => .held
    | .ended => s.sweep r wgen k

/-- Where the walker goes next (R229, R230): later in its list, else on after the pass. -/
def State.walkNext (s : State) : Course :=
  let (list, from_) := match s.host.visit with
    | some v => (v.list, s.qNext v.qsb)
    | none => (7, s.host.heads.getD 7 0)
  match s.scan from_ 65536 with
  | .found q => .to q list s.host.wgen
  | .marked => .held
  | .ended => s.sweep list s.host.wgen 18

/-- The walker may leave the queue on which it stands: its visit is over and no splice is in progress. -/
def State.walkFree (s : State) : Bool :=
  match s.host.visit with
  | none => true
  | some v => !s.qMark v.qsb && (v.left == 0 || !s.qWork v.qsb || s.host.stalled.contains v.qsb)

/-- WALKER_VISIT (R229): the walker moves to the next queue with work, whose packets it may then process, up to
8. With no work anywhere (`qsb` 0) it passes over every list. -/
def execWalkerVisit (qsb : Word) (s : State) : Host.Outcome State Fault Refusal :=
  .next (
    if !s.walkerOn || !s.walkFree then s
    else match s.walkNext with
      | .held => s
      | .idle => if qsb ≠ 0 then s else
          { s with host := { s.host with visit := none, wgen := s.host.wgen.map (· + 1) } }
      | .to q p wgen =>
        if q ≠ qsb then s
        else { s with host := { s.host with
          visit := some ⟨p, q, 8⟩
          stalled := s.host.stalled.filter (fun x => x != q)
          wgen := wgen } })

/-! ## Words that a queue names (R369) -/

/-- The outcome of an access of the walker. -/
inductive QRes (α : Type) where
  | ok (v : α)
  | fail (cause : Nat) (va : Word)
  | wait (s : State)

/-- The answer of a request of this queue to another device or to the host: `n` is 8 for a read, 9 for a write. One
to another device that times out has failed (R369); of the host, a read gives all ones and a write counts as
performed (R200, R209). -/
def State.qAnswer (s : State) (qsb va : Word) (n : Nat) (ask : State) : QRes Word :=
  match s.mem.remote.find? (fun r => r.who == Asker.queue qsb && r.va == va && r.n == n) with
  | none => .wait ask
  | some r => match r.ans with
    | none => .wait s
    | some (v, fail) =>
      if r.late && r.key.isNone then .fail 4 va else if fail then .fail (failCause v) va else .ok v

/-- Read a word through the context of the queue. -/
def State.qRead (s : State) (qsb va : Word) : QRes Word :=
  let ctx := s.qsbCtx qsb
  match s.devWord (.queue qsb) ctx va .load with
  | .ok k => if k / 2 ^ 56 = 2 then s.qAnswer qsb va 8 (s.newHost ctx k (.queue qsb) va 8 (.load 8)).1
      else .ok (s.readKey k 8)
  | .fail c => .fail c va
  | .wait => .wait (s.devAskQ (.queue qsb) ctx va .load)
  | .remote d => s.qAnswer qsb va 8 (s.newRemote 0 d ctx (.queue qsb) va 8 (.load 8)).1

/-- Read `n` words from an address on. -/
def State.qReads (s : State) (qsb va : Word) : Nat → QRes (List Word)
  | 0 => .ok []
  | n + 1 => match s.qRead qsb va with
    | .fail c a => .fail c a
    | .wait s1 => .wait s1
    | .ok v => match s.qReads qsb (va + 8) n with
      | .ok l => .ok (v :: l)
      | .fail c a => .fail c a
      | .wait s1 => .wait s1

/-- The state after a write whose answer has come. -/
def State.qWritten (s : State) : QRes Word → QRes State
  | .ok _ => .ok s
  | .fail c a => .fail c a
  | .wait s1 => .wait s1

/-- Write a word through the context of the queue: the state after it. -/
def State.qWrite (s : State) (qsb va v : Word) : QRes State :=
  let ctx := s.qsbCtx qsb
  match s.devWord (.queue qsb) ctx va .store with
  | .ok k => if k / 2 ^ 56 = 2 then
        s.qWritten (s.qAnswer qsb va 9 (s.newHost ctx k (.queue qsb) va 9 (.store 8 [v])).1)
      else .ok (s.perform k (leBytes 8 v.toNat))
  | .fail c => .fail c va
  | .wait => .wait (s.devAskQ (.queue qsb) ctx va .store)
  | .remote d => s.qWritten (s.qAnswer qsb va 9 (s.newRemote 0 d ctx (.queue qsb) va 9 (.store 8 [v])).1)

/-- The walker's accesses for this queue are done with: its requests to other devices, what it waits for, and the
failed answers that it has not met (R369). -/
def State.qForget (s : State) (qsb : Word) : State :=
  let mine (e : Nat × Word × Asker) : Bool := e.2.2 == Asker.queue qsb
  { s with
    mem := { s.mem with
      remote := s.mem.remote.filter (fun r => !(r.who == Asker.queue qsb && (r.n == 8 || r.n == 9))) }
    mmu := { s.mmu with
      asked := s.mmu.asked.filter (fun e => !mine e)
      failed := s.mmu.failed.filter (fun e => !mine e) } }

/-! ## The place in a queue (R232) -/

/-- The buffers open in a queue, innermost first: the address of the next packet and the packets left. -/
def State.qStack (s : State) (qsb : Word) : List (Word × Nat) :=
  ((s.host.pos.find? (fun p => p.qsb == qsb)).map (·.stack)).getD []

/-- Set the open buffers of a queue. -/
def State.setStack (s : State) (qsb : Word) (st : List (Word × Nat)) : State :=
  let rest := s.host.pos.filter (fun p => p.qsb != qsb)
  { s with host := { s.host with pos := if st.isEmpty then rest else ⟨qsb, st⟩ :: rest } }

/-- The address of the next packet (R228, R232). A RING that is not aligned, or an RLOG2 out of its range, is used as it
stands: the model's choice (log entry 116). -/
def State.packetVa (s : State) (qsb : Word) : Word :=
  match s.qStack qsb with
  | (va, _) :: _ => va
  | [] => BitVec.ofNat 64 (s.qsbWord qsb 1 + 128 * (s.qRptr qsb % 2 ^ (s.qsbWord qsb 2 % 32)))

/-- Step past a packet: a buffer whose last packet it was closes, and its INDIRECT is consumed too. The flag
says that RPTR advances. -/
def popStack : List (Word × Nat) → List (Word × Nat) × Bool
  | [] => ([], true)
  | (va, n) :: rest => if n ≤ 1 then popStack rest else ((va + 128, n - 1) :: rest, false)

/-- A packet has been processed (R232): it counts towards the visit. -/
def State.consume (s : State) (qsb : Word) : State :=
  let (st, adv) := popStack (s.qStack qsb)
  let s := (s.qForget qsb).setStack qsb st
  let s := s.setQueue qsb 0 (s.qRptr qsb + (if adv then 1 else 0))
  { s with host := { s.host with
      visit := s.host.visit.map (fun v => if v.qsb == qsb then { v with left := v.left - 1 } else v) } }

/-- The queue cannot go on now; its visit ends. -/
def State.qStall (s : State) (qsb : Word) : State :=
  { s with host := { s.host with
      visit := s.host.visit.map (fun v => if v.qsb == qsb then { v with left := 0 } else v)
      stalled := if s.host.stalled.contains qsb then s.host.stalled else qsb :: s.host.stalled } }

/-! ## Malformed packets (R237, R238) -/

/-- Every QSB on the run lists. -/
def State.allQueues (s : State) : List Word := (List.range 8).flatMap s.runList

/-- Halt the live instances of some contexts without a fault record of theirs, and what waits on them
(R238, R78); one that has completed is not live (R76; log entry 108). -/
def State.haltCtxs (s : State) (ctxs : List Nat) : State :=
  let mine := s.insts.filter (fun a => ctxs.contains a.l.ctx && !a.l.ending)
  let s := mine.foldl (fun s a => (s.endCohorts a.l.serial).dropInst a.slot 2) s
  let deps := s.insts.filter (fun x => mine.any (fun a => x.l.dep == some a.l.serial))
  deps.foldl (fun s x =>
    let r := (s.bareFault x.slot 0 0 0xFE (BitVec.ofNat 64 (x.l.dep.getD 0)) 0 0).set 6 0
    s.haltWith x.slot r) s

/-- What the run lists show of the halted queues (R238): one that is on no list has been removed; one removed before
that stands on a list again is active again, which its STATE then says (log entry 94). -/
def State.noteLists (s : State) : State :=
  if s.host.halted.isEmpty then s
  else
    let on := s.allQueues
    let back := (s.host.halted.filter (fun e => e.2 && on.contains e.1)).map (·.1)
    let rest := (s.host.halted.filter (fun e => !back.contains e.1)).map (fun e => (e.1, e.2 || !on.contains e.1))
    back.foldl (fun s q => s.setQueue q 0 (s.qRptr q)) { s with host := { s.host with halted := rest } }

/-- A malformed packet (R238): the fault record, then every queue of the process halts and its contexts are
discarded with their instances. -/
def State.malformed (s : State) (qsb pkt : Word) (reason : Nat) (addr : Word) : State :=
  let s := s.writeFault qsb (s.bareFault 0 0 0 reason pkt addr 0)
  let qs := (qsb :: s.allQueues.filter (fun q => s.qProc q == s.qProc qsb)).eraseDups
  let ctxs := (qs.map s.qsbCtx).eraseDups
  let s := qs.foldl (fun s q => ((s.qForget q).setStack q []).setQueue q 2 (s.qRptr q)) s
  let end_ (v : Visit) : Visit := if qs.contains v.qsb then { v with left := 0 } else v
  let rest := s.host.halted.filter (fun e => !qs.contains e.1)
  let s := { s with host := { s.host with
    visit := s.host.visit.map end_
    halted := rest ++ qs.map (fun q => (q, false))
    launching := s.host.launching.filter (fun e => !qs.contains e.1) } }
  (ctxs.foldl (fun s c => s.killCtx c) s).haltCtxs ctxs

/-- Bits of packet words that no field of the packet names (R232, R233), by TYPE: a mask for each word. -/
def reservedOf (type : Nat) : List Nat :=
  let all := 2 ^ 64 - 1
  let above (n : Nat) : Nat := all - (2 ^ n - 1)
  match type with
  | 0 => above 8 :: List.replicate 15 all
  | 1 => [above 21, 0, 0, 0, above 48, 0, 0, 0, above 32, above 46, 0, 0, 0, above 16, 0, 0]
  | 2 => [above 9, 0, 0] ++ List.replicate 13 all
  | 3 => [above 11, 0, 0, 0] ++ List.replicate 12 all
  | _ => [above 8, 0, above 32] ++ List.replicate 13 all

/-- A packet has a reserved bit set. -/
def reservedSet (type : Nat) (w : List Word) : Bool :=
  (w.zip (reservedOf type)).any (fun e => e.1.toNat &&& e.2 != 0)

/-- The VAs of a packet with the alignment each must have (R232, R233). -/
def vasOf (type : Nat) (w : List Word) : List (Word × Nat) :=
  let x (i : Nat) : Word := w.getD i 0
  match type with
  | 1 => [(x 3, 64), (x 5, 4096), (x 6, 8), (x 10, 4096), (x 12, 4096), (x 15, 8)]
  | 2 | 3 => [(x 1, 8)]
  | 4 => [(x 1, 128)]
  | _ => []

/-- A count of a packet is out of range (R237). -/
def badCount (type : Nat) (w : List Word) : Bool :=
  let x (i : Nat) : Nat := (w.getD i 0).toNat
  match type with
  | 1 => decide (4096 < x 4 % 2 ^ 16) || decide (8192 < bitsOf (x 9) 45 32)
  | 4 => x 2 % 2 ^ 32 == 0 || decide (65536 < x 2 % 2 ^ 32)
  | _ => false

/-- The first reason of R237, counted from 1, for which a packet at a depth is malformed; that a word cannot
be read or fails is found later. -/
def malformedBy (w : List Word) (depth : Nat) : Option Nat :=
  let type := (w.getD 0 0).toNat % 256
  if 4 < type then some 1
  else if reservedSet type w then some 2
  else if (vasOf type w).any (fun v => v.1.toNat % v.2 != 0) then some 3
  else if type = 3 && decide (3 < bitsOf (w.getD 0 0).toNat 10 8) then some 4
  else if badCount type w then some 5
  else if type = 4 && decide (4 ≤ depth) then some 6
  else none

/-! ## Processing a packet -/

/-- What processing a packet comes to: done, to be tried again, or malformed after all (R369). -/
inductive PRes where
  | done (s : State)
  | wait (s : State)
  | bad (s : State) (reason : Nat) (addr : Word)

/-- Process the next packet of the queue that the walker visits, if `mine` accepts its words; a malformed one
is taken by whichever packet event comes. -/
def State.packet (s : State) (qsb : Word) (mine : List Word → Bool) (run : State → List Word → Word → PRes) :
    State :=
  let visiting : Bool := match s.host.visit with
    | some v => v.qsb == qsb && decide (0 < v.left)
    | none => false
  if !s.walkerOn || !visiting || !s.qWork qsb then s
  else
    let va := s.packetVa qsb
    match s.qReads qsb va 16 with
    | .wait s1 => s1.qStall qsb
    | .fail _ a => (s.devClear (.queue qsb) (s.qsbCtx qsb) a).malformed qsb va 7 a
    | .ok w =>
      match malformedBy w (s.qStack qsb).length with
      | some r => s.malformed qsb va r 0
      | none =>
        if !mine w then s
        else match run s w va with
          | .done s1 => s1
          | .wait s1 => s1.qStall qsb
          | .bad s1 r a => (s1.devClear (.queue qsb) (s1.qsbCtx qsb) a).malformed qsb va r a

/-- TYPE of a packet. -/
def typeIs (t : Nat) (w : List Word) : Bool := (w.getD 0 0).toNat % 256 == t

/-- PACKET_NOP (R232). -/
def execPacketNop (qsb : Word) (s : State) : Host.Outcome State Fault Refusal :=
  .next (s.packet qsb (typeIs 0) (fun s _ _ => .done (s.consume qsb)))

/-- The store of a WRITE_VALUE (R232, R369). -/
def State.writeOp (s : State) (qsb : Word) (w : List Word) : PRes :=
  match s.qWrite qsb (w.getD 1 0) (w.getD 2 0) with
  | .ok s1 => .done (s1.consume qsb)
  | .wait s1 => .wait s1
  | .fail _ a => .bad s 7 a

/-- WRITE_VALUE (R232). -/
def execWriteValue (qsb : Word) (s : State) : Host.Outcome State Fault Refusal :=
  .next (s.packet qsb (fun w => typeIs 2 w && !(w.getD 0 0).getLsbD 8) (fun s w _ => s.writeOp qsb w))

/-- WRITE_VALUE with DONE (R232): once every instance launched from the queue has completed or halted. -/
def execWriteValueDone (qsb : Word) (s : State) : Host.Outcome State Fault Refusal :=
  .next (s.packet qsb (fun w => typeIs 2 w && (w.getD 0 0).getLsbD 8) (fun s w _ =>
    if s.insts.any (fun a => a.l.qsb == qsb) then .wait s else s.writeOp qsb w))

/-- WAIT_VALUE (R232): the queue is held, with STATE 1, until the comparison holds. -/
def execWaitValue (qsb : Word) (s : State) : Host.Outcome State Fault Refusal :=
  .next (s.packet qsb (typeIs 3) (fun s w _ =>
    match s.qRead qsb (w.getD 1 0) with
    | .fail _ a => .bad s 7 a
    | .wait s1 => .wait s1
    | .ok v =>
      let x := (v &&& w.getD 3 0).toNat
      let y := (w.getD 2 0).toNat
      let holds : Bool := match bitsOf (w.getD 0 0).toNat 10 8 with
        | 0 => x == y
        | 1 => x != y
        | 2 => decide (y ≤ x)
        | _ => decide (x < y)
      if holds then .done (s.consume qsb)
      else .wait ((s.qForget qsb).setQueue qsb 1 (s.qRptr qsb))))

/-- INDIRECT (R232): the queue goes on in a buffer; the packet itself does not count. -/
def execIndirect (qsb : Word) (s : State) : Host.Outcome State Fault Refusal :=
  .next (s.packet qsb (typeIs 4) (fun s w _ =>
    .done ((s.qForget qsb).setStack qsb ((w.getD 1 0, (w.getD 2 0).toNat % 2 ^ 32) :: s.qStack qsb))))

end Sys2Proof.Machine
end

