-- ==== Sys2Proof/Machine/LaunchEvents.lean ====
section
/-! DEFINITION. GRAPH_LAUNCH: the image and its node descriptors (R44 to R47, R82), the initial records (R49,
R279), the checks of a launch in their order (R234) and the instance it makes (R233, R235, R236). -/

namespace Sys2Proof.Machine

/-! ## Descriptors (R45) -/

/-- Sign of a field of `n` bits. -/
def fieldInt (n v : Nat) : Int := if 2 * v < 2 ^ n then v else (v : Int) - 2 ^ n

/-- Byte `k` of a field of bytes, or field of `b` bits. -/
def fieldAt (w b k : Nat) : Nat := w / 2 ^ (b * k) % 2 ^ b

/-- A node descriptor from its 16 words (R45). -/
def nodeOfWords (l : List Word) : Node :=
  let x (i : Nat) : Nat := (l.getD i 0).toNat
  { entry := l.getD 0 0, const := l.getD 1 0
    ingress := bitOf (x 2) 39, pbias := fieldInt 3 (bitsOf (x 2) 38 36), replay := bitOf (x 2) 35
    early := bitOf (x 2) 34, maxdepth := bitsOf (x 2) 33 28, alast := bitsOf (x 2) 27 12
    ncrew := bitsOf (x 2) 10 4 + 1, kind := bitsOf (x 2) 3 0
    sstart := (List.range 8).map (fieldAt (x 3) 8), ireg := (List.range 8).map (fieldAt (x 4) 7)
    resident := bitsOf (x 5) 39 28, tiles := bitsOf (x 5) 27 21, scratch := bitsOf (x 5) 20 10
    budget := bitsOf (x 5) 9 0, linger := bitsOf (x 6) 63 32, cap := bitsOf (x 6) 20 0
    pcount := bitsOf (x 7) 47 32, runlimit := bitsOf (x 7) 31 0, handler := l.getD 8 0
    out := (List.range 16).map (fun j => fieldAt (x (9 + j / 4)) 16 (j % 4))
    pred := (List.range 4).map (fieldAt (x 13) 16) }

/-- A reserved field of a descriptor is not zero (R45, R47). -/
def nodeReserved (l : List Word) : Bool :=
  let x (i : Nat) : Nat := (l.getD i 0).toNat
  bitsOf (x 2) 63 40 != 0 || bitOf (x 2) 11 || bitsOf (x 4) 63 56 != 0 || bitsOf (x 5) 63 40 != 0
    || bitsOf (x 6) 31 21 != 0 || bitsOf (x 7) 63 48 != 0 || x 14 != 0 || x 15 != 0
    || (List.range 16).any (fun j => bitsOf (fieldAt (x (9 + j / 4)) 16 (j % 4)) 13 12 != 0)
    || (List.range 4).any (fun j => bitsOf (fieldAt (x 13) 16 j) 14 12 != 0)

/-- Stage `s` has no crews (R46). -/
def Node.noCrews (n : Node) (s : Nat) : Bool :=
  n.sstart.getD s 0 == (if s = 7 then n.ncrew else n.sstart.getD (s + 1) 0)

/-- SSTART keeps R46. -/
def Node.stagesOk (n : Node) : Bool :=
  n.sstart.getD 0 0 == 0 && (List.range 7).all (fun s => decide (n.sstart.getD s 0 ≤ n.sstart.getD (s + 1) 0))
    && n.sstart.all (fun b => decide (b ≤ n.ncrew))

/-- A descriptor passes the checks of R47 that concern it alone, in an image of `nn` nodes. -/
def Node.ok (n : Node) (nn self : Nat) : Bool :=
  decide (n.kind ≤ 4) && n.pbias != -4 && decide (1 ≤ n.cap) && decide (n.cap ≤ 1048576) && n.runlimit != 0
    && n.entry.toNat % 4 == 0 && n.handler.toNat % 4 == 0 && n.stagesOk
    && (List.range 8).all (fun s => (n.ireg.getD s 0 == 0) == n.noCrews s)
    && decide (((List.range n.ncrew).map n.size).sum ≤ 8 * n.budget)
    && decide (n.tiles ≤ 64) && decide (n.scratch ≤ 1024) && n.ireg.all (fun r => decide (r ≤ 64))
    && decide (1 ≤ n.budget) && decide (n.budget ≤ 512)
    && (if n.kind = 4 then decide (1 ≤ n.pcount) && decide (n.pcount ≤ 4096) else n.pcount == 0)
    && n.locals.all (fun t => decide (t < nn)) && n.preds.all (fun t => decide (t < nn) && t != self)
    && !(n.ingress && n.kind == 0 && n.linger == 0)

/-- Nodes reached from a set along a relation, `k` rounds. -/
def growBy (f : Nat → List Nat) : Nat → List Nat → List Nat
  | 0, l => l
  | k + 1, l =>
    let more := ((l.flatMap f).eraseDups).filter (fun n => !l.contains n)
    if more.isEmpty then l else growBy f k (l ++ more)

/-- The completion edges form a cycle (R47). -/
def predCycle (ns : List Node) : Bool :=
  (List.range ns.length).any (fun n =>
    let f (m : Nat) : List Nat := (ns.getD m {}).preds
    (growBy f ns.length (f n).eraseDups).contains n)

/-- One round of the longest-path computation of R82 over components: `r` holds what each node reaches. -/
def depthRound (ns : List Node) (r : List (List Nat)) (d : List Nat) : List Nat :=
  let reach (a b : Nat) : Bool := (r.getD a []).contains b
  (List.range ns.length).map (fun n => (List.range ns.length).foldl (fun x m =>
    if !((ns.getD m {}).locals.contains n) then x
    else if reach n m || m == n then max x (d.getD m 0) else max x (d.getD m 0 + 1)) (d.getD n 0))

/-- Topological depth of every node (R82). -/
def depths (ns : List Node) : List Nat :=
  let r := (List.range ns.length).map (reachFrom ns)
  (List.range ns.length).foldl (fun d _ => depthRound ns r d) (List.replicate ns.length 0)

/-- Nodes with their depths. -/
def withDepths (ns : List Node) : List Node :=
  ((ns.zip (depths ns))).map (fun p => { p.1 with depth := p.2 })

/-! ## Reading the image and the records (R44, R234) -/

/-- What reading for a launch gives: a status to refuse with, or a wait. -/
inductive LRes (α : Type) where
  | ok (v : α)
  | refuse (status : Nat)
  | wait (s : State)

/-- Split a list in groups of `k`, at most `n` of them. -/
def groups {α : Type} (k : Nat) : Nat → List α → List (List α)
  | 0, _ => []
  | n + 1, l => l.take k :: groups k n (l.drop k)

/-- The header of an image breaks R44 or R47; `w0` and `nn` are its word 0 and node count. -/
def headerBad (h : List Word) (w0 nn : Nat) : Bool :=
  w0 % 2 ^ 32 != 0x3149474C || nn == 0 || decide (4096 < nn) || (h.getD 1 0).toNat % 128 != 0
    || bitsOf w0 63 48 != 0 || (h.drop 2).any (· != 0)

/-- The nodes of an image (R44, R45, R47). That the node table which the header names cannot be read comes before
every cause of status 1 (R234). -/
def State.readImage (s : State) (qsb va : Word) : LRes (List Node) :=
  match s.qReads qsb va 8 with
  | .wait s1 => .wait s1
  | .fail _ _ => .refuse 5
  | .ok h =>
    let w0 := (h.getD 0 0).toNat
    let nn := bitsOf w0 47 32
    match s.qReads qsb (va + (h.getD 1 0 &&& ~~~7#64)) (16 * nn) with
    | .wait s1 => .wait s1
    | .fail _ _ => .refuse 5
    | .ok t =>
      let ds := groups 16 nn t
      let ns := ds.map nodeOfWords
      if headerBad h w0 nn || ds.any nodeReserved || !((List.range nn).all (fun i => (ns.getD i {}).ok nn i))
          || predCycle ns
      then .refuse 1 else .ok (withDepths ns)

/-- An initial record as the device enqueues it (R279). -/
def initRecord (devid : Nat) (l : List Word) : Record :=
  { recOf (fun i => l.getD i 0) with depth := 0, srccore := 0xFFFF, srcdev := devid }

/-- R279: the record is refused. -/
def initBad (ns : List Node) (l : List Word) : Bool :=
  let r := recOf (fun i => l.getD i 0)
  decide (ns.length ≤ r.node) || decide ((ns.getD r.node {}).alast < r.aidx) || r.npay == 7 || r.remote
    || bitsOf (l.getD 1 0).toNat 63 32 != 0

/-- The initial records (R234, R279). -/
def State.readInit (s : State) (qsb va : Word) (n : Nat) (ns : List Node) : LRes (List Record) :=
  match s.qReads qsb va (8 * n) with
  | .wait s1 => .wait s1
  | .fail _ _ => .refuse 5
  | .ok t =>
    let ds := groups 8 n t
    if ds.any (initBad ns) then .refuse 1 else .ok (ds.map (initRecord s.devid))

/-- R17: a node's cohort cannot be placed on a die that holds one of its queues. Scratchpad that a mapped window has
withdrawn (R130) does not count here, since a later mapping change gives it back: the model's choice (log entry 91). -/
def State.unplaceable (s : State) (ns : List Node) : Bool :=
  (List.range ns.length).any (fun n =>
    let nd := ns.getD n {}
    (if nd.alast = 0 then [n % 2] else [0, 1]).any (fun die =>
      !((dieTargets die nd.shape.span).any (fun c => (targetCores nd.shape.span c).all s.coreEnabled))))

/-- The size of a save slot (R236). -/
def slotBytes (ns : List Node) : Nat :=
  ((ns.map imageBytes).foldl max 0 + 4095) / 4096 * 4096

/-- The checks on the launch dependency (R234): status 4 or 7. -/
def State.depStatus (s : State) (proc dep : Nat) : Option Nat :=
  if s.insts.any (fun a => a.l.serial == dep && a.l.proc == proc) then none
  else match s.host.past.find? (fun p => p.serial == dep && p.proc == proc) with
    | some p => if p.outcome = 1 then none else if p.outcome = 2 then some 7 else some 4
    | none => some 4

/-! ## The launch (R233 to R236) -/

/-- The instance that a packet makes, without its queues. -/
def State.makeInst (s : State) (qsb : Word) (w : List Word) (ns : List Node) (slot : Nat) : Inst :=
  let x (i : Nat) : Nat := (w.getD i 0).toNat
  let dep := if bitOf (x 0) 20 && s.insts.any (fun a => a.l.serial == x 8 % 2 ^ 32) then some (x 8 % 2 ^ 32) else none
  let size := slotBytes ns
  { slot := slot
    l := { serial := s.fresh.serial, tag := x 9 % 2 ^ 32, prio := bitsOf (x 0) 10 8, ctx := s.qsbCtx qsb
           proc := s.qProc qsb, qsb := qsb, ictx := w.getD 2 0, siltVa := w.getD 5 0, compVa := w.getD 6 0
           compVal := w.getD 7 0, irq := if bitOf (x 0) 11 then some (bitsOf (x 0) 19 12) else none
           seed := w.getD 14 0, dep := dep, waiting := true }
    a := { siltBlocks := bitsOf (x 4) 47 16, saveVa := w.getD 10 0, slotSize := size, slots := x 11 / size
           lpVa := w.getD 12 0, lpSize := 8 * bitsOf (x 9) 45 32, lpAreas := x 13 % 2 ^ 16 }
    nodes := ns }

/-- Enqueue the initial records without regard to CAP (R49); none when one finds no place. -/
def State.enqueueAll (s : State) (slot : Nat) : List Record → Option State
  | [] => some s
  | r :: rest => match s.enqueue? slot r false with
    | some s1 => s1.enqueueAll slot rest
    | none => none

/-- The lowest free instance slot. -/
def State.freeInst (s : State) : Option Nat :=
  (List.range 64).find? (fun k => !(s.insts.any (fun a => a.slot == k)))

/-- The instance live with its records, or the status that refuses the launch: the checks of R234 in their
order. -/
def State.tryLaunch (s : State) (qsb : Word) (w : List Word) : LRes State :=
  let x (i : Nat) : Nat := (w.getD i 0).toNat
  match s.readImage qsb (w.getD 1 0) with
  | .refuse k => .refuse k
  | .wait s1 => .wait s1
  | .ok ns => match s.readInit qsb (w.getD 3 0) (x 4 % 2 ^ 16) ns with
    | .refuse k => .refuse k
    | .wait s1 => .wait s1
    | .ok rs =>
      if s.unplaceable ns then .refuse 2
      else if x 11 < slotBytes ns then .refuse 6
      else match s.freeInst with
        | none => .refuse 3
        | some slot =>
          match (if bitOf (x 0) 20 then s.depStatus (s.qProc qsb) (x 8 % 2 ^ 32) else none) with
          | some k => .refuse k
          | none =>
            if s.insts.any (fun a => a.l.tag == x 9 % 2 ^ 32) then .refuse 8
            else
              let a := s.makeInst qsb w ns slot
              match ({ s with insts := s.insts ++ [a] }).enqueueAll slot rs with
              | some s1 => .ok s1
              | none => .refuse 9

/-- The status word of a launch (R234). -/
def launchWord (serial status : Nat) : Word := BitVec.ofNat 64 (status + serial % 2 ^ 32 * 2 ^ 32)

/-- A GRAPH_LAUNCH packet draws its serial with the status that its checks came to; a refused one is remembered, and
an accepted one waits for its status word. -/
def State.drawSerial (s : State) (qsb : Word) (status : Nat) : State :=
  let serial := s.fresh.serial
  let past : List Past := if status = 0 then [] else [⟨serial, s.qProc qsb, qsb, 3⟩]
  { s with
    fresh := { s.fresh with serial := serial + 1 }
    host := { s.host with
      past := s.host.past ++ past
      launching := (qsb, serial, status) :: s.host.launching.filter (fun e => e.1 != qsb) } }

/-- The launch of a queue is no longer on its way. -/
def State.landLaunch (s : State) (qsb : Word) : State :=
  { s with host := { s.host with launching := s.host.launching.filter (fun e => e.1 != qsb) } }

/-- The instance that a launch has made begins. -/
def State.beginInst (s : State) (serial : Nat) : State :=
  { s with insts := s.insts.map (fun (a : Inst) =>
      if a.l.serial = serial then { a with l := { a.l with waiting := false } } else a) }

/-- The status word cannot be written: nothing has been launched (R369). -/
def State.undoLaunch (s : State) (serial : Nat) : State :=
  match s.insts.find? (fun a => a.l.serial == serial) with
  | some a => s.dropInst a.slot 3
  | none => s

/-- Write the status word of the launch that a queue has on its way (R234, R369): when it is written the packet is
consumed and the instance begins; when it cannot be written the packet is malformed and nothing is launched. -/
def State.launchWrite (s : State) (qsb va : Word) (serial status : Nat) : PRes :=
  match s.qWrite qsb va (launchWord serial status) with
  | .ok s1 => .done (((s1.landLaunch qsb).beginInst serial).consume qsb)
  | .wait s1 => .wait s1
  | .fail _ a => .bad ((s.landLaunch qsb).undoLaunch serial) 7 a

/-- GRAPH_LAUNCH (R233, R234, R369): that the status word can be written is checked first; for a word of another device
or of the host its write is the check, and the place that the launch takes meanwhile is no live instance yet. The other
checks fix the status and the serial once; then the status word is written, before any next packet and before the
instance begins (log entry 95). -/
def execGraphLaunch (qsb : Word) (s : State) : Host.Outcome State Fault Refusal :=
  .next (s.packet qsb (typeIs 1) (fun s w _ =>
    let va := w.getD 15 0
    let draw (t : State) (k : Nat) : PRes := (t.drawSerial qsb k).launchWrite qsb va s.fresh.serial k
    match s.host.launching.find? (fun e => e.1 == qsb), s.devWord (.queue qsb) (s.qsbCtx qsb) va .store with
    | some (_, serial, k), _ => s.launchWrite qsb va serial k
    | none, .fail _ => .bad s 7 va
    | none, .wait => .wait (s.devAskQ (.queue qsb) (s.qsbCtx qsb) va .store)
    | none, _ => match s.tryLaunch qsb w with
      | .wait s1 => .wait s1
      | .refuse k => draw s k
      | .ok s1 => draw s1 0))

end Sys2Proof.Machine
end

