-- ==== Sys2Proof/Machine/FirmwareEvents.lean ====
section
/-! DEFINITION. Reset and bring-up, the firmware load, attestation (R240 to R243), repair (R12 to R15), mailboxes
(R239), checkpoints (R246), power (R248). -/

namespace Sys2Proof.Machine

/-! ## Repair (R12 to R15) -/

/-- Physical pair of a physical core, die × 50 + number, where core is die × 100 + number. -/
def physPair (core : Nat) : Nat := core / 2

/-- The logical pair that a physical pair serves before any repair; none for a spare pair. That numbers 48 and 49 of
a die are its spares, and that number k below serves logical pair k, is the model's choice (log entry 76). -/
def ownPair (p : Nat) : Option Nat := if p % 50 < 48 then some (48 * (p / 50) + p % 50) else none

/-- The spare pairs of a die, in the order in which they are taken: the model's choice (log entry 76). -/
def sparePairs (die : Nat) : List Nat := [50 * die + 48, 50 * die + 49]

/-- Bring-up's work on the repair record: spare pairs mapped now (logical pair, spare pair), spare pairs taken so far,
logical cores disabled. -/
structure Mapping where
  map : List (Nat × Nat) := []
  used : List Nat := []
  off : List Nat := []
deriving DecidableEq, Repr

/-- The logical pair that a physical pair serves under a mapping. -/
def Mapping.serves (m : Mapping) (p : Nat) : Option Nat :=
  match m.map.find? (fun e => e.2 == p) with
  | some e => some e.1
  | none => match ownPair p with
    | some k => if m.map.any (fun e => e.1 == k) then none else some k
    | none => none

/-- Apply one failed core of the record (R12, R14): its pair's place is taken by a spare pair of the die not taken
before; without one the failed core alone is disabled. A pair already replaced changes nothing more. -/
def Mapping.apply (m : Mapping) (core : Nat) : Mapping :=
  match m.serves (physPair core) with
  | none => m
  | some k => match (sparePairs (core / 100)).find? (fun p => !m.used.contains p) with
    | some p => { m with map := (k, p) :: m.map.filter (fun e => e.1 != k), used := p :: m.used }
    | none => if m.off.contains (2 * k + core % 2) then m else { m with off := m.off ++ [2 * k + core % 2] }

/-- What bring-up makes of the failed cores of a record, in its order: the model's choice (log entry 76). -/
def Repair.mapping (r : Repair) : Mapping := r.cores.foldl Mapping.apply {}

/-- The spare pairs mapped at bring-up (R12): logical pair, spare pair. -/
def repairMap (r : Repair) : List (Nat × Nat) := r.mapping.map

/-- The logical cores disabled at bring-up (R14). -/
def repairDisabled (r : Repair) : List Nat := r.mapping.off

/-- The physical core that serves a logical core now. -/
def State.physCore (s : State) (core : Nat) : Nat :=
  match s.host.pairs.find? (fun p => p.1 == core / 2) with
  | some p => 2 * p.2 + core % 2
  | none => 100 * (core / 96) + core % 96

/-- Firmware records a failed unit (R13): kind 0 logical core, 1 slice, 2 pseudo-channel, 3 stack. Nothing changes
before the next reset. -/
def State.recordFailure (s : State) (kind n : Nat) : State :=
  let add (l : List Nat) (x below : Nat) : List Nat := if l.contains x || decide (below ≤ n) then l else l ++ [x]
  let r := s.host.repair
  let r1 : Repair := match kind with
    | 0 => { r with cores := add r.cores (s.physCore n) 192 }
    | 1 => { r with slices := add r.slices n 1024 }
    | 2 => { r with channels := add r.channels n 6144 }
    | 3 => { r with hbm := add r.hbm n 16 }
    | _ => r
  { s with host := { s.host with repair := r1 } }

/-- Usable HBM4E bytes (R15, R16, R18, R240): the frames of the pseudo-channels that are not retired, without the two
carve-outs. -/
def Repair.memBytes (r : Repair) : Nat :=
  2 ^ 16 * (((List.range 6144).filter (fun c => !r.lost c)).map channelFrames).sum - 2 ^ 29

/-! ## The configuration record (R18) -/

/-- 64 bits, one of each number of a range that satisfies `f`. -/
def bitsWhere (f : Nat → Bool) (lo : Nat) : Word :=
  BitVec.ofNat 64 ((List.range 64).foldl (fun n i => if f (lo + i) then n + 2 ^ i else n) 0)

/-- The words of the record, with the units that bring-up has retired and mapped (R13). SLOFF and STACKEN tell of the
slices and stacks that the repair record names, not of those whose channels are all retired otherwise: the model's
choice (log entry 76). -/
def State.configRecord (s : State) (fwmaj devid porten membytes : Nat) : List Word :=
  let r := s.host.applied
  let spare (die : Nat) : Nat := ((sparePairs die).filter (fun p => !r.mapping.used.contains p)).length
  let sloff (die : Nat) : Nat := (r.slices.filter (fun n => n / 512 == die)).length
  let en (k : Nat) : Word := bitsWhere (fun c => !s.sched.disabled.contains c) (64 * k)
  let hbm := (bitsWhere (fun n => decide (n < 16) && !r.hbm.contains n) 0).toNat
  [BitVec.ofNat 64 (devid * 2 ^ 16 + fwmaj * 2 ^ 32 + 0xB1 * 2 ^ 40 + 0x2480 * 2 ^ 48), en 0, en 1, en 2,
    BitVec.ofNat 64 (hbm + porten * 2 ^ 16),
    BitVec.ofNat 64 (sloff 0 + sloff 1 * 2 ^ 16 + spare 0 * 2 ^ 32 + spare 1 * 2 ^ 40),
    BitVec.ofNat 64 membytes, 0]

/-! ## BAR 2 (R241) -/

/-- The key of the first byte of a die's firmware carve-out: a space of its own, which no program's address
reaches (log entry 18). -/
def carveOut (die : Nat) : Nat := (5 + die) * 2 ^ 56

/-- Bytes of the load window and of a carve-out. -/
def windowBytes : Nat := 2 ^ 28

/-- What a host read of a BAR 2 word gives (R241). -/
def State.bar2 (s : State) (off : Nat) : Word :=
  let fw := s.host.fw
  if off < 64 then fw.config.getD (off / 8) 0
  else if off = 0x1000 then (if fw.lock then 1 else 0)
  else if off = 0x1008 then BitVec.ofNat 64 fw.stat
  else if off = 0x1010 then BitVec.ofNat 64 fw.len
  else if 0x10000000 ≤ off ∧ off < 0x20000000 then
    (if fw.lock then BitVec.allOnes 64 else s.readKey (carveOut 0 + (off - 0x10000000)) 8)
  else 0

/-- A host write of FWLOCK (R240, R241): LOCK is set once and verification begins. -/
def State.setLock (s : State) (v : Word) : State :=
  let fw := s.host.fw
  if fw.lock || !v.getLsbD 0 then s
  else { s with host := { s.host with fw := { fw with lock := true, stat := 1 } } }

/-- A host write of the load window (R241): ignored once LOCK is set. -/
def State.loadWindow (s : State) (off : Nat) (data : List Byte) : State :=
  let fw := s.host.fw
  if fw.lock || fw.stat != 0 || decide (windowBytes < off + data.length) then s
  else s.writeKey (carveOut 0 + off) data

/-- FWLOCK_WRITE. -/
def execFwlockWrite (v : Word) (s : State) : Host.Outcome State Fault Refusal := .next (s.setLock v)

/-- LOAD_WINDOW_WRITE. -/
def execLoadWindowWrite (off : Nat) (data : List Byte) (s : State) : Host.Outcome State Fault Refusal :=
  .next (s.loadWindow off data)

/-- REGISTER_WRITE (R241): FWLEN while unlocked; other offsets of BAR 2 ignore writes. -/
def execRegisterWrite (off : Nat) (v : Word) (s : State) : Host.Outcome State Fault Refusal :=
  .next (
    let fw := s.host.fw
    if off = 0x1000 then s.setLock v
    else if off = 0x1010 then
      (if fw.lock then s else { s with host := { s.host with fw := { fw with len := v.toNat % 2 ^ 29 } } })
    else if 0x10000000 ≤ off then s.loadWindow (off - 0x10000000) (leBytes 8 v.toNat)
    else s)

/-! ## Reset and verification (R240, R243) -/

/-- RESET (R243, R12 to R14): the whole order up to step 4. What is not the device's, and the repair record in
its non-volatile storage, stay; the model's own numbers go on. -/
def execReset (s : State) : Host.Outcome State Fault Refusal :=
  .next (
    let r := s.host.repair
    let z := State.reset
    let mem : Global := { mem := s.mem.mem.filter (fun c => c.1 / 2 ^ 56 == 2)
                          poison := s.mem.poison.filter (fun l => 64 * l / 2 ^ 56 == 2) }
    let fab : Fabric := { z.fab with out := s.fab.out }
    let host : Host_ := { z.host with
      fw := { z.host.fw with meas := measAtReset r }
      repair := r, applied := r, pairs := repairMap r, tiers := s.host.tiers }
    let fresh : Fresh := { s.fresh with serial := 1 }
    { z with mem := mem, fab := fab, host := host, fresh := fresh, agenda := s.agenda
             sched := { z.sched with disabled := repairDisabled r } })

/-- The firmware image as loaded (R240). -/
def State.image (s : State) : List Byte := (List.range s.host.fw.len).map (fun i => s.byteAt (carveOut 0 + i))

/-- Set one measurement register of a list. -/
def setMeas (l : List (List Byte)) (k : Nat) (bs : List Byte) : List (List Byte) :=
  l.set k (extendMeas (l.getD k []) bs)

/-- FIRMWARE_VERIFY_DONE (R240, R243): after a good check, steps 5 to 7 with the ports that trained and the
device number that bring-up found, and the usable memory, which the repair record fixes (an event with another number
does not happen); else the record of a failed check. -/
def execFirmwareVerifyDone (devid porten membytes : Nat) (s : State) : Host.Outcome State Fault Refusal :=
  .next (
    let fw := s.host.fw
    if fw.stat ≠ 1 then s
    else
      let img := s.image
      let good := decide (1 ≤ fw.len) && decide (fw.len ≤ windowBytes) && Config.signatureVerifies img
      let m := setMeas fw.meas 1 img
      if good && membytes != s.host.applied.memBytes then s
      else if !good then
        let c := s.configRecord 0x0F 0 0 0
        { s with host := { s.host with
          fw := { fw with stat := 3, config := c, meas := setMeas m 3 (c.flatMap (fun w => leBytes 8 w.toNat)) } } }
      else
        let up (i : Nat) : Nat := match s.fab.ports[i]? with
          | some p => if bitOf porten i then widest p.lanes.length else 0
          | none => 0
        let ports := (List.range 24).map (fun i => { (s.fab.ports.getD i {}) with width := up i })
        let en := (List.range 24).foldl (fun n i => if up i = 0 then n else n + 2 ^ i) 0
        let c := s.configRecord 1 (devid % 1024) en membytes
        let s1 := s.writeKey (carveOut 1) img
        { s1 with
          fab := { s1.fab with ports := ports }
          host := { s1.host with
            heads := List.replicate 8 0
            fw := { fw with
              stat := 2, boot := 8, devid := devid % 1024, config := c
              meas := setMeas m 3 (c.flatMap (fun w => leBytes 8 w.toNat)) } } })

/-! ## Attestation (R242) -/

/-- Answer an SPDM request: `known` bytes that the manual gives, then free ones. -/
def State.spdm (s : State) (kind : Nat) (nonce known : List Byte) : State :=
  let n := s.host.fw.spdmSent
  ({ s with host := { s.host with fw := { s.host.fw with spdmSent := n + 1 } } }).send
    (.spdm (known ++ Config.spdmBytes kind nonce n))

/-- GET_VERSION. -/
def execGetVersion (s : State) : Host.Outcome State Fault Refusal := .next (s.spdm 0 [] [])
/-- GET_CAPABILITIES. -/
def execGetCapabilities (s : State) : Host.Outcome State Fault Refusal := .next (s.spdm 1 [] [])
/-- NEGOTIATE_ALGORITHMS. -/
def execNegotiateAlgorithms (s : State) : Host.Outcome State Fault Refusal := .next (s.spdm 2 [] [])
/-- GET_DIGESTS. -/
def execGetDigests (s : State) : Host.Outcome State Fault Refusal := .next (s.spdm 3 [] [])
/-- GET_CERTIFICATE. -/
def execGetCertificate (s : State) : Host.Outcome State Fault Refusal := .next (s.spdm 4 [] [])
/-- CHALLENGE. -/
def execChallenge (nonce : List Byte) (s : State) : Host.Outcome State Fault Refusal := .next (s.spdm 5 nonce [])
/-- GET_MEASUREMENTS: the eight registers, and what signs them. -/
def execGetMeasurements (nonce : List Byte) (s : State) : Host.Outcome State Fault Refusal :=
  .next (s.spdm 6 nonce s.host.fw.meas.flatten)

/-! ## Mailboxes and power (R239, R248) -/

/-- MAILBOX_SEND (R239): a message of 32 bytes, or busy. -/
def execMailboxSend (i j : Nat) (msg : List Word) (s : State) : Host.Outcome State Fault Refusal :=
  .next (
    let k := 8 * i + j
    let q := SMap.get [] s.host.mail k
    if 8 ≤ i ∨ 8 ≤ j ∨ msg.length ≠ 4 then s
    else if 16 ≤ q.length then s.send (.busy i)
    else { s with host := { s.host with mail := SMap.set [] s.host.mail k (q ++ [msg]) } })

/-- A core takes the oldest message of a mailbox. -/
def State.receive (s : State) (i j : Nat) : State :=
  let k := 8 * i + j
  { s with host := { s.host with mail := SMap.set [] s.host.mail k ((SMap.get [] s.host.mail k).drop 1) } }

/-- THERMAL_LIMIT (R248): the block lowers its own clock, and core 7 reports it; no result changes. -/
def execThermalLimit (block : Nat) (s : State) : Host.Outcome State Fault Refusal :=
  .next (({ s with host := { s.host with
    thermal := if s.host.thermal.contains block then s.host.thermal else block :: s.host.thermal } }).send
      (.report 7 block))

/-! ## Checkpoints (R246) -/

/-- CHECKPOINT_START (R246): placement stops for every instance. `bound` is in nanoseconds. -/
def execCheckpointStart (bound : Nat) (s : State) : Host.Outcome State Fault Refusal :=
  .next (if s.host.check.on || !s.walkerOn then s
    else { s with
      sched := { s.sched with stopped := true }
      host := { s.host with check := { on := true, bound := bound, started := s.clk.ns } } })

/-- The checkpoint ends, and placement resumes. -/
def State.checkEnd (s : State) : State :=
  { s with
    sched := { s.sched with stopped := false }
    host := { s.host with check := {} } }

/-- The bound of the host has passed. -/
def State.checkLate (s : State) : Bool := decide (s.host.check.started + s.host.check.bound < s.clk.ns)

/-- CHECKPOINT_TIMEOUT (R246): step 2 was not reached within the bound. -/
def execCheckpointTimeout (s : State) : Host.Outcome State Fault Refusal :=
  .next (if s.host.check.on && !s.host.check.reached && s.checkLate then s.checkEnd.send (.report 6 64) else s)

/-- A cohort has been evicted. -/
def Cohort.out (h : Cohort) : Bool := match h.ev with
  | .evicted _ => true
  | _ => false

/-- A cohort waits at a blocking point: each of its crews that has not executed EXIT does (R42, R246). -/
def State.waits (s : State) (h : Cohort) : Bool :=
  (s.crewsOf h.uid).all Crew.atRest && !(s.crewsOf h.uid).all Crew.gone

/-- Step 2 of R246: every cohort is gone or waits at a blocking point, no record occupies an outbound area and no engine
item is in flight. An evicted cohort waits, and an aborted one is gone. -/
def State.quiet (s : State) : Bool :=
  s.cohorts.all (fun h => h.out || h.ev == .dead || ((h.ev == .placed || h.ev == .saving) && s.waits h))
    && s.fab.outbound.isEmpty && s.eng.items.isEmpty

/-- The cohorts that a checkpoint has still to evict, of an instance. -/
def State.toEvict (s : State) (a : Inst) : Nat :=
  (s.cohorts.filter (fun h => h.serial == a.l.serial && (h.ev == .placed || h.ev == .saving))).length

/-- Step 3 of R246: every cohort that waits begins its save by R222, and those that can end theirs do. One that a trap
has kept placed (R222) begins anew when it waits again. -/
def State.checkSave (s : State) : State :=
  let begin_ (h : Cohort) : Cohort := if h.ev = .placed && s.waits h then { h with ev := .saving, back := false } else h
  let s := { s with
    cohorts := s.cohorts.map begin_
    host := { s.host with check := { s.host.check with reached := true } } }
  (s.cohorts.filter (fun (h : Cohort) => h.ev == .saving)).foldl (fun s h => match s.cohort? h.uid with
    | some x => if x.ev = .saving then s.saveNow x else s
    | none => s) s

/-- Every cohort has been evicted, and nothing is on its way that the image would not hold: a record, an item, a store of
a cohort that has gone, a launch (log entry 96). -/
def State.saved (s : State) : Bool :=
  s.cohorts.all Cohort.out && s.fab.outbound.isEmpty && s.eng.items.isEmpty && s.mem.stores.isEmpty
    && s.host.launching.isEmpty

/-- A home lies in HBM4E: the memory of a die or its carve-out. -/
def inHbm (k : Nat) : Bool := decide (k / 2 ^ 56 < 2) || k / 2 ^ 56 == 5 || k / 2 ^ 56 == 6

/-- What goes to the host's safe tier. -/
def State.snapshot (s : State) : Snapshot :=
  { cells := s.mem.mem.filter (fun c => inHbm c.1), poison := s.mem.poison.filter (fun l => 64 * l / 2 ^ 56 != 2)
    insts := s.insts, cohorts := s.cohorts, crews := s.crews, ctxs := s.mmu.ctxs, log := s.mem.log
    pos := s.host.pos, past := s.host.past, heads := s.host.heads, serial := s.fresh.serial
    halted := s.host.halted, faultQ := s.host.faultQ }

/-- CHECKPOINT_QUIESCED (R246): step 2 is reached within the bound, and an instance with too few save slots fails it
there; then every live cohort is evicted and the memory goes to the safe tier. Cohorts whose save must wait (R222) follow
when the event comes again. -/
def execCheckpointQuiesced (s : State) : Host.Outcome State Fault Refusal :=
  .next (
    let k := s.host.check
    if !k.on || (!k.reached && (s.checkLate || !s.quiet)) then s
    else match s.insts.find? (fun a => !k.reached && decide (a.a.slots - a.a.slotsUsed.length < s.toEvict a)) with
      | some a => s.checkEnd.send (.report 6 a.slot)
      | none =>
        let s1 := s.checkSave
        if s1.saved then
          ({ s1 with host := { s1.host with tiers := s1.host.tiers ++ [s1.snapshot] } }).checkEnd
        else s1)

/-- A crew of a restored image: what it waited for outside the image, a page or a word of another device or of the host, is examined
at its resume, which asks for it again. -/
def State.restored (s : State) (c : Crew) : Crew :=
  let again : Bool := match c.w.kind with
    | .waita _ va _ => vaDev va != s.devid || vaDie va == 2
    | .page _ => true
    | _ => false
  if again then { c with w := { c.w with wake := true } } else c

/-- CHECKPOINT_RESTORE (R246): the image is written back; its cohorts are evicted ones that resume by R224. Pages that
stores of the side log wait for are asked for again. -/
def execCheckpointRestore (k : Nat) (s : State) : Host.Outcome State Fault Refusal :=
  .next (match s.host.tiers[k]? with
    | none => s
    | some t =>
      if !s.walkerOn then s
      else
        let part (m : List Host.Cell) (lo n : Nat) : List Host.Cell :=
          m.filter (fun c => decide (lo ≤ c.1 / 2 ^ 56) && decide (c.1 / 2 ^ 56 < lo + n))
        let mem : Global := { s.mem with
          mem := part t.cells 0 2 ++ part s.mem.mem 2 3 ++ part t.cells 5 2
            ++ s.mem.mem.filter (fun c => decide (7 ≤ c.1 / 2 ^ 56))
          poison := t.poison ++ s.mem.poison.filter (fun l => 64 * l / 2 ^ 56 == 2)
          hist := [], loads := [], stores := [], log := t.log, remote := [] }
        let s1 := { s with
          mem := mem, insts := t.insts, cohorts := t.cohorts, crews := t.crews.map s.restored
          mmu := { ctxs := t.ctxs, late := s.mmu.late, malformed := s.mmu.malformed }
          eng := {}
          sched := { disabled := s.sched.disabled }
          fab := { s.fab with outbound := [], grants := [], asks := [] }
          host := { s.host with
            pos := t.pos, past := t.past, heads := t.heads, visit := none, stalled := [], check := {}
            halted := t.halted, faultQ := t.faultQ, launching := [] }
          fresh := { s.fresh with stamp := s.fresh.stamp + 1, serial := max s.fresh.serial t.serial } }
        (t.log.foldl (fun (s : State) e => s.joinMerge e.ctx e.page e.kind e.pc) s1).flushFaults)

end Sys2Proof.Machine
end

