-- ==== Sys2Proof/Machine/Scalar.lean ====
section
/-! DEFINITION. The scalar register and immediate operations (R271, R318 to R320). -/

namespace Sys2Proof.Machine

/-- A scalar result: s[D] takes it, a write to s0 is discarded, and the PC moves on (R29, R318). -/
def scalarOp (d : Nat) (v : Crew → Word) (s : State) : Host.Outcome State Fault Refusal :=
  crewOp (fun s c h => s.finish (c.setS d (v c)) h) s

/-- The conditions of SSET (R271): signed, or unsigned for the .n forms. -/
def sHolds (k : SCmp) (a b : Word) : Bool :=
  match k with
  | .eq => a == b
  | .ne => a != b
  | .lt => decide (a.toInt < b.toInt)
  | .ge => decide (b.toInt ≤ a.toInt)
  | .ltn => decide (a.toNat < b.toNat)
  | .gen => decide (b.toNat ≤ a.toNat)

/-- The low bit, the width and the mask of the field that s[B] names (R320). -/
def fieldLo (b : Word) : Nat := b.toNat % 64
def fieldW (b : Word) : Nat := b.toNat / 256 % 64 + 1
def fieldMask (b : Word) : Word := BitVec.ofNat 64 ((2 ^ fieldW b - 1) * 2 ^ fieldLo b)
/-- The field of a word; bits above 63 read 0 (R320). -/
def fieldOf (a b : Word) : Nat := a.toNat / 2 ^ fieldLo b % 2 ^ fieldW b

/-- SADD (R271, R318). -/
def execSadd (d a b : Nat) (s : State) : Host.Outcome State Fault Refusal :=
  scalarOp d (fun c => c.sr a + c.sr b) s

/-- SSUB (R271, R318). -/
def execSsub (d a b : Nat) (s : State) : Host.Outcome State Fault Refusal :=
  scalarOp d (fun c => c.sr a - c.sr b) s

/-- SADDI (R271, R319); the immediate by R253. -/
def execSaddi (d a : Nat) (imm : Int) (s : State) : Host.Outcome State Fault Refusal :=
  scalarOp d (fun c => c.sr a + immWord imm) s

/-- SMUL: the low 64 bits (R271). -/
def execSmul (d a b : Nat) (s : State) : Host.Outcome State Fault Refusal :=
  scalarOp d (fun c => c.sr a * c.sr b) s

/-- SMULH: the high 64 bits of the signed product (R271). -/
def execSmulh (d a b : Nat) (s : State) : Host.Outcome State Fault Refusal :=
  scalarOp d (fun c => BitVec.ofInt 64 ((c.sr a).toInt * (c.sr b).toInt / 2 ^ 64)) s

/-- SMULH.n: the high 64 bits of the unsigned product (R271). -/
def execSmulhN (d a b : Nat) (s : State) : Host.Outcome State Fault Refusal :=
  scalarOp d (fun c => BitVec.ofNat 64 ((c.sr a).toNat * (c.sr b).toNat / 2 ^ 64)) s

/-- SAND (R271). -/
def execSand (d a b : Nat) (s : State) : Host.Outcome State Fault Refusal :=
  scalarOp d (fun c => c.sr a &&& c.sr b) s

/-- SOR (R271). -/
def execSor (d a b : Nat) (s : State) : Host.Outcome State Fault Refusal :=
  scalarOp d (fun c => c.sr a ||| c.sr b) s

/-- SXOR (R271). -/
def execSxor (d a b : Nat) (s : State) : Host.Outcome State Fault Refusal :=
  scalarOp d (fun c => c.sr a ^^^ c.sr b) s

/-- SANDN: s[A] and not s[B] (R271). -/
def execSandn (d a b : Nat) (s : State) : Host.Outcome State Fault Refusal :=
  scalarOp d (fun c => c.sr a &&& ~~~(c.sr b)) s

/-- SANDI (R271, R319). -/
def execSandi (d a : Nat) (imm : Int) (s : State) : Host.Outcome State Fault Refusal :=
  scalarOp d (fun c => c.sr a &&& immWord imm) s

/-- SORI (R271, R319). -/
def execSori (d a : Nat) (imm : Int) (s : State) : Host.Outcome State Fault Refusal :=
  scalarOp d (fun c => c.sr a ||| immWord imm) s

/-- SXORI (R271, R319). -/
def execSxori (d a : Nat) (imm : Int) (s : State) : Host.Outcome State Fault Refusal :=
  scalarOp d (fun c => c.sr a ^^^ immWord imm) s

/-- SSHL by s[B] mod 64 (R318). -/
def execSshl (d a b : Nat) (s : State) : Host.Outcome State Fault Refusal :=
  scalarOp d (fun c => c.sr a <<< ((c.sr b).toNat % 64)) s

/-- SSHR by s[B] mod 64 (R318). -/
def execSshr (d a b : Nat) (s : State) : Host.Outcome State Fault Refusal :=
  scalarOp d (fun c => c.sr a >>> ((c.sr b).toNat % 64)) s

/-- SSRA by s[B] mod 64 (R318). -/
def execSsra (d a b : Nat) (s : State) : Host.Outcome State Fault Refusal :=
  scalarOp d (fun c => (c.sr a).sshiftRight ((c.sr b).toNat % 64)) s

/-- SSHL by an immediate count (R318). -/
def execSshlImm (d a n : Nat) (s : State) : Host.Outcome State Fault Refusal :=
  scalarOp d (fun c => c.sr a <<< n) s

/-- SSHR by an immediate count (R318). -/
def execSshrImm (d a n : Nat) (s : State) : Host.Outcome State Fault Refusal :=
  scalarOp d (fun c => c.sr a >>> n) s

/-- SSRA by an immediate count (R318). -/
def execSsraImm (d a n : Nat) (s : State) : Host.Outcome State Fault Refusal :=
  scalarOp d (fun c => (c.sr a).sshiftRight n) s

/-- SSET: 1 when the condition holds, else 0 (R271, R318). -/
def execSset (k : SCmp) (d a b : Nat) (s : State) : Host.Outcome State Fault Refusal :=
  scalarOp d (fun c => if sHolds k (c.sr a) (c.sr b) then 1 else 0) s

/-- SMIN, signed (R271). -/
def execSmin (d a b : Nat) (s : State) : Host.Outcome State Fault Refusal :=
  scalarOp d (fun c => if (c.sr a).toInt ≤ (c.sr b).toInt then c.sr a else c.sr b) s

/-- SMAX, signed (R271). -/
def execSmax (d a b : Nat) (s : State) : Host.Outcome State Fault Refusal :=
  scalarOp d (fun c => if (c.sr b).toInt ≤ (c.sr a).toInt then c.sr a else c.sr b) s

/-- SMIN.n, unsigned (R271). -/
def execSminN (d a b : Nat) (s : State) : Host.Outcome State Fault Refusal :=
  scalarOp d (fun c => if (c.sr a).toNat ≤ (c.sr b).toNat then c.sr a else c.sr b) s

/-- SMAX.n, unsigned (R271). -/
def execSmaxN (d a b : Nat) (s : State) : Host.Outcome State Fault Refusal :=
  scalarOp d (fun c => if (c.sr b).toNat ≤ (c.sr a).toNat then c.sr a else c.sr b) s

/-- SMOV (R271). -/
def execSmov (d a : Nat) (s : State) : Host.Outcome State Fault Refusal :=
  scalarOp d (fun c => c.sr a) s

/-- SSEL: s[A] when the predicate, after NEG, meets xm; else s[B] (R271). -/
def execSsel (d a b : Nat) (q : Pred) (s : State) : Host.Outcome State Fault Refusal :=
  scalarOp d (fun c => if c.em q != 0 then c.sr a else c.sr b) s

/-- SMOVI (R271, R319). -/
def execSmovi (d : Nat) (imm : Int) (s : State) : Host.Outcome State Fault Refusal :=
  scalarOp d (fun _ => immWord imm) s

/-- SMOVI.hi: bits [63:36] take imm[27:0], [35:0] are kept (R271, R319). -/
def execSmoviHi (d : Nat) (imm : Int) (s : State) : Host.Outcome State Fault Refusal :=
  scalarOp d (fun c => BitVec.ofNat 64 ((c.sr d).toNat % 2 ^ 36 + (immWord imm).toNat % 2 ^ 28 * 2 ^ 36)) s

/-- SBFX: the field of s[B], sign-extended (R320). -/
def execSbfx (d a b : Nat) (s : State) : Host.Outcome State Fault Refusal :=
  scalarOp d (fun c => BitVec.ofInt 64 (toSigned (fieldW (c.sr b)) (fieldOf (c.sr a) (c.sr b)))) s

/-- SBFX.n: the field of s[B], zero-extended (R320). -/
def execSbfxN (d a b : Nat) (s : State) : Host.Outcome State Fault Refusal :=
  scalarOp d (fun c => BitVec.ofNat 64 (fieldOf (c.sr a) (c.sr b))) s

/-- SBFI: the field is inserted into s[D] (R320). -/
def execSbfi (d a b : Nat) (s : State) : Host.Outcome State Fault Refusal :=
  scalarOp d (fun c => (c.sr d &&& ~~~(fieldMask (c.sr b))) ||| ((c.sr a <<< fieldLo (c.sr b)) &&& fieldMask (c.sr b))) s

/-- SCLZ: leading zeros, 0 to 64 (R271). -/
def execSclz (d a : Nat) (s : State) : Host.Outcome State Fault Refusal :=
  scalarOp d (fun c => BitVec.ofNat 64 (64 - bitLen (c.sr a).toNat)) s

/-- SPOPC: ones (R271). -/
def execSpopc (d a : Nat) (s : State) : Host.Outcome State Fault Refusal :=
  scalarOp d (fun c => BitVec.ofNat 64 (popc (c.sr a).toNat 64)) s

end Sys2Proof.Machine
end

