-- ==== Sys2Proof/Machine/System.lean ====
section
/-! DEFINITION. System registers (R37 to R40, R326, R327), the register window and pool (R32 to R36,
R315, R363), the generator's registers (R317), traps, YIELD and EXIT (R298, R306, R329, R330, R367). -/

namespace Sys2Proof.Machine

/-! ## System registers -/

/-- Registers of a core's pool reserved by cohorts (R33). -/
def State.poolUsed (s : State) (core : Nat) : Nat :=
  ((s.cohorts.filter (fun h => (match h.ev with | .evicted _ => false | _ => true)
    && (h.sh.core == core || (h.sh.span && h.sh.core + 1 == core)))).map (·.sh.budget)).sum

/-- CST (R39). -/
def Crew.cst (c : Crew) : Word :=
  BitVec.ofNat 64 (c.m.xm.toNat * 2 ^ 32 + c.g.skid * 2 ^ 16 + c.m.msd * 2 ^ 10
    + (if c.g.hnd then 2 ^ 9 else 0))

/-- Extents in use: the binary decomposition of the size in granules (R32). -/
def extents (size : Nat) : Nat := popc (size / 8) 7

/-- The value of a system register (R37 to R40); none for a number that is not in the map. -/
def State.sysReg (s : State) (c : Crew) (h : Cohort) (n : Int) : Option Word :=
  let core := h.coreOf c.idx
  match n with
  | 0x000 => some c.g.ccr
  | 0x001 => some c.cst
  | 0x002 => some (BitVec.ofNat 64 (c.g.xsr + c.g.xdev * 2 ^ 38))
  | 0x003 => some (BitVec.ofNat 64 (c.g.wbase * 8))
  | 0x004 => some (BitVec.ofNat 64 h.node)
  | 0x005 => some (BitVec.ofNat 64 h.elem)
  | 0x006 => some (cohWord h.x h.y h.z)
  | 0x007 => some (BitVec.ofNat 64 c.idx)
  | 0x008 => some (BitVec.ofNat 64 c.stage)
  | 0x009 => some (BitVec.ofNat 64 h.sh.ncrew)
  | 0x00A => some (BitVec.ofNat 64 h.recs.length)
  | 0x00B => some (BitVec.ofNat 64 (s.devid + dieOf core * 2 ^ 10 + core * 2 ^ 16))
  | 0x00C => some (BitVec.ofNat 64 s.clk.ns)
  | 0x010 => some ((c.nfl 0).setWidth 64)
  | 0x011 => some ((c.nfl 1).setWidth 64)
  | 0x012 => some ((c.nfl 2).setWidth 64)
  | 0x013 => some ((c.nfl 3).setWidth 64)
  | 0x014 => some ((c.nfl 4).setWidth 64)
  | 0x015 => some ((c.nfl 5).setWidth 64)
  | 0x016 => some ((c.nfl 6).setWidth 64)
  | 0x020 => some (BitVec.ofNat 64 (h.sh.budget * 2 ^ 32 + h.sh.free * 2 ^ 16 + (4096 - s.poolUsed core)))
  | 0x021 => some (BitVec.ofNat 64 (extents c.size * 2 ^ 16 + c.size))
  | 0x030 => some c.f.pc
  | 0x031 => some (BitVec.ofNat 64 c.f.cause)
  | 0x032 => some (c.f.lanes.setWidth 64)
  | 0x033 => some c.f.addr
  | 0x034 => some c.f.lcause
  | _ => none

/-- The RW and W1C registers (R37). -/
def sysWritable (n : Int) : Bool :=
  n == 0 || n == 2 || n == 3 || (decide (0x010 ≤ n) && decide (n ≤ 0x016))

/-- The RW fields of CCR (R38). -/
def ccrMask : Word := 0x37FF

/-- The effect of SYSWR on a writable register (R327, R39). -/
def Crew.sysWrite (c : Crew) (n : Int) (v : Word) : Crew :=
  if n = 0 then { c with g := { c.g with ccr := v &&& ccrMask } }
  else if n = 2 then
    let x := ((BitVec.ofNat 3 c.g.xsr) &&& ~~~(v.setWidth 3)).toNat
    { c with g := { c.g with xsr := x, xdev := if x = 0 then 0 else c.g.xdev } }
  else if n = 3 then { c with g := { c.g with wbase := v.toNat / 8 % 64 } }
  else
    let k := n.toNat - 16
    { c with g := { c.g with nfl := SMap.set 0 c.g.nfl k (c.nfl k &&& ~~~(v.setWidth 32)) } }

/-- SYSRD (R326). -/
def execSysrd (d : Nat) (num : Int) (s : State) : Host.Outcome State Fault Refusal :=
  crewOp (fun s c h =>
    match s.sysReg c h num with
    | none => s.illegal c h
    | some v => s.finish (c.setS d v) h) s

/-- SYSWR (R327): PRIV for an RO register, ILLEGAL for a reserved rounding mode. -/
def execSyswr (a : Nat) (num : Int) (s : State) : Host.Outcome State Fault Refusal :=
  crewOp (fun s c h =>
    match s.sysReg c h num with
    | none => s.illegal c h
    | some _ =>
      if !sysWritable num then s.takeTrap c.issued h (c.trapAt 2)
      else if num = 0 && decide (6 ≤ (c.sr a).toNat % 8) then s.illegal c h
      else s.finish (c.sysWrite num (c.sr a)) h) s

/-- WBASE (R363). -/
def execWbase (n : Int) (s : State) : Host.Outcome State Fault Refusal :=
  crewOp (fun s c h =>
    if n < 0 ∨ 63 < n then s.illegal c h
    else s.finish { c with g := { c.g with wbase := n.toNat } } h) s

/-! ## The register pool (R34 to R36, R315) -/

/-- Results on their way to registers at or above a size are dropped (R34). -/
def State.dropResults (s : State) (c : Crew) (size : Nat) : State :=
  let cut (d : Dst) : Dst := match d with
    | .v k => if k < 32 * size then d else .none
    | _ => d
  { s with mem := { s.mem with
      loads := s.mem.loads.map (fun (l : Load) => if l.uid == c.uid && l.idx == c.idx then
        { l with parts := l.parts.map (fun p => { p with dst := cut p.dst }) } else l)
      stores := s.mem.stores.map (fun (e : Store) => if e.uid == c.uid && e.idx == c.idx then
        { e with dst := cut e.dst } else e) } }

/-- REGREL (R34, R315). -/
def execRegrel (n : Int) (s : State) : Host.Outcome State Fault Refusal :=
  crewOp (fun s c h =>
    if n ≤ 0 ∨ n % 8 ≠ 0 ∨ (c.size : Int) ≤ n then s.illegal c h
    else
      let size := c.size - n.toNat
      let f (h : Cohort) : Cohort := { h with sh := { h.sh with free := h.sh.free + n.toNat } }
      ((((s.dropResults c size).modCohort h.uid f).finish (c.dropAbove size) (f h)).reform c.uid c.idx).grantClaims
        h.uid) s

/-- A claim of the cohort that comes before one that crew `idx` makes now is waiting (R35): one that blocked in an earlier
cycle, or in this cycle that of a lower crew. -/
def State.claimAhead (s : State) (uid idx : Nat) : Bool :=
  (s.claims uid).any (fun k => decide (k.1 < s.clk.cycle) || (k.1 == s.clk.cycle && decide (k.2.1 < idx)))

/-- REGCLM (R35, R315): granted at once, or the crew waits. -/
def execRegclm (n : Int) (s : State) : Host.Outcome State Fault Refusal :=
  crewOp (fun s c h =>
    if c.w.begun then
      -- the claim was granted while the crew waited
      s.finish c h
    else if n ≤ 0 ∨ n % 8 ≠ 0 ∨ 512 < (c.size : Int) + n then s.illegal c h
    else if c.w.kind = .none && n.toNat ≤ h.sh.free && !s.claimAhead h.uid c.idx then
      let f (h : Cohort) : Cohort := { h with sh := { h.sh with free := h.sh.free - n.toNat } }
      ((s.modCohort h.uid f).finish (c.grant n.toNat) (f h)).reform c.uid c.idx
    else (s.waitOn c (.regclm n.toNat)).testDeadlock h.uid) s

/-! ## The generator (R317) -/

/-- RNGSET.seed (R317). -/
def execRngsetSeed (a : Nat) (s : State) : Host.Outcome State Fault Refusal :=
  crewOp (fun s c h => s.finish { c with g := { c.g with seed := c.sr a } } h) s

/-- RNGSET.ctr (R317). -/
def execRngsetCtr (a : Nat) (s : State) : Host.Outcome State Fault Refusal :=
  crewOp (fun s c h => s.finish { c with g := { c.g with ctr := c.sr a } } h) s

/-- RNGGET.ctr (R317). -/
def execRnggetCtr (d : Nat) (s : State) : Host.Outcome State Fault Refusal :=
  crewOp (fun s c h => s.finish (c.setS d c.g.ctr) h) s

/-- RNGGET.seed (R317). -/
def execRnggetSeed (d : Nat) (s : State) : Host.Outcome State Fault Refusal :=
  crewOp (fun s c h => s.finish (c.setS d c.g.seed) h) s

/-! ## Traps, and the end of a crew -/

/-- TRAP (R329): SWTRAP outside a handler; inside one, the abort, whose record reports the trap that
entered the handler (R289). -/
def execTrap (a : Nat) (s : State) : Host.Outcome State Fault Refusal :=
  crewOp (fun s c h =>
    let code := (c.sr a).toNat % 256
    if !c.g.hnd then s.finish c h (some { c.trapAt 14 with code := code })
    else
      let t : Trap := { cause := c.f.cause, pc := c.f.pc, lanes := c.f.lanes, addr := c.f.addr
                        lcause := c.f.lcause, resume := c.nextPc, xdev := c.f.xdev, code := code }
      match h.halt with
      | some k =>
        if k.abort then s.putCrew { c.issued.setPc c.nextPc with pend := c.pend ++ [t] }
        else (s.putCrew (c.issued.setPc c.nextPc)).startAbort h.uid
          { crew := c.idx, trap := t, abort := true, xm := c.h.xm, msd := c.h.msd }
      | none => (s.putCrew (c.issued.setPc c.nextPc)).startAbort h.uid
          { crew := c.idx, trap := t, abort := true, xm := c.h.xm, msd := c.h.msd }) s

/-- TRET (R218, R330). A crew that has exited may be the last of its cohort (R227, R306). -/
def execTret (s : State) : Host.Outcome State Fault Refusal :=
  crewOp (fun s c h => if !c.g.hnd then s.illegal c h else (s.tret c h).tryRetire h.uid) s

/-- BRK (R298). -/
def execBrk (s : State) : Host.Outcome State Fault Refusal :=
  crewOp (fun s c h => s.finish c h (some (c.trapAt 12))) s

/-- NOP (R311). -/
def execNop (s : State) : Host.Outcome State Fault Refusal := crewOp (fun s c h => s.finish c h) s

/-- YIELD (R367): a blocking point until the next placement round of the die has run. -/
def execYield (s : State) : Host.Outcome State Fault Refusal :=
  crewOp (fun s c h =>
    if c.w.begun then (if c.w.kind = .none then s.finish c h else s)
    else s.waitOn { c with w := { c.w with begun := true } } .yield) s

/-- EXIT (R306): ILLEGAL in a handler; after the release the crew has exited. A crew that steps singly takes SSTEP after
it as after every unit, behind a sibling's halt where there is one, before that halt can end (R213, R227; log entry 36).
Then barriers and claims are tested again, and the cohort may retire. -/
def execExit (s : State) : Host.Outcome State Fault Refusal :=
  crewOp (fun s c h =>
    if c.g.hnd then s.illegal c h
    else s.releasing c h 3
      (let c1 := { c.issued with g := { c.issued.g with exited := true, stopping := false } }
       let s1 := s.putCrew (c1.setPc c.nextPc)
       let s2 := if c.g.ccr.getLsbD 12 then
           s1.takeTrap (c1.setPc c.nextPc) h { cause := 13, pc := c.r.pc, resume := c.nextPc } else s1
       (((s2.testBars h.uid).testDeadlock h.uid).settle h.uid).tryRetire h.uid)) s

end Sys2Proof.Machine
end

