-- ==== Sys2Proof/Machine/Dispatch.lean ====
section
/-! DEFINITION. One arm per instruction of the opcode table. -/

namespace Sys2Proof.Machine

def exec (i : Instr) (s : State) : Host.Outcome State Fault Refusal :=
  match i with
  | .sadd d a b => Sys2Proof.Machine.execSadd d a b s
  | .ssub d a b => Sys2Proof.Machine.execSsub d a b s
  | .saddi d a imm => Sys2Proof.Machine.execSaddi d a imm s
  | .smul d a b => Sys2Proof.Machine.execSmul d a b s
  | .smulh d a b => Sys2Proof.Machine.execSmulh d a b s
  | .smulhN d a b => Sys2Proof.Machine.execSmulhN d a b s
  | .sand d a b => Sys2Proof.Machine.execSand d a b s
  | .sor d a b => Sys2Proof.Machine.execSor d a b s
  | .sxor d a b => Sys2Proof.Machine.execSxor d a b s
  | .sandn d a b => Sys2Proof.Machine.execSandn d a b s
  | .sandi d a imm => Sys2Proof.Machine.execSandi d a imm s
  | .sori d a imm => Sys2Proof.Machine.execSori d a imm s
  | .sxori d a imm => Sys2Proof.Machine.execSxori d a imm s
  | .sshl d a b => Sys2Proof.Machine.execSshl d a b s
  | .sshr d a b => Sys2Proof.Machine.execSshr d a b s
  | .ssra d a b => Sys2Proof.Machine.execSsra d a b s
  | .sshlImm d a n => Sys2Proof.Machine.execSshlImm d a n s
  | .sshrImm d a n => Sys2Proof.Machine.execSshrImm d a n s
  | .ssraImm d a n => Sys2Proof.Machine.execSsraImm d a n s
  | .sset c d a b => Sys2Proof.Machine.execSset c d a b s
  | .smin d a b => Sys2Proof.Machine.execSmin d a b s
  | .smax d a b => Sys2Proof.Machine.execSmax d a b s
  | .sminN d a b => Sys2Proof.Machine.execSminN d a b s
  | .smaxN d a b => Sys2Proof.Machine.execSmaxN d a b s
  | .smov d a => Sys2Proof.Machine.execSmov d a s
  | .ssel d a b q => Sys2Proof.Machine.execSsel d a b q s
  | .smovi d imm => Sys2Proof.Machine.execSmovi d imm s
  | .smoviHi d imm => Sys2Proof.Machine.execSmoviHi d imm s
  | .sbfx d a b => Sys2Proof.Machine.execSbfx d a b s
  | .sbfxN d a b => Sys2Proof.Machine.execSbfxN d a b s
  | .sbfi d a b => Sys2Proof.Machine.execSbfi d a b s
  | .sclz d a => Sys2Proof.Machine.execSclz d a s
  | .spopc d a => Sys2Proof.Machine.execSpopc d a s
  | .sld d a off z scope nt => Sys2Proof.Machine.execSld d a off z scope nt s
  | .sst d a off z scope nt => Sys2Proof.Machine.execSst d a off z scope nt s
  | .bra off => Sys2Proof.Machine.execBra off s
  | .bcc c r off => Sys2Proof.Machine.execBcc c r off s
  | .bccPred c p off => Sys2Proof.Machine.execBccPred c p off s
  | .call off => Sys2Proof.Machine.execCall off s
  | .ret => Sys2Proof.Machine.execRet s
  | .jmpi a => Sys2Proof.Machine.execJmpi a s
  | .pand d a b => Sys2Proof.Machine.execPand d a b s
  | .por d a b => Sys2Proof.Machine.execPor d a b s
  | .pxor d a b => Sys2Proof.Machine.execPxor d a b s
  | .pnot d a => Sys2Proof.Machine.execPnot d a s
  | .pcnt d a => Sys2Proof.Machine.execPcnt d a s
  | .pcntAny d a => Sys2Proof.Machine.execPcntAny d a s
  | .pcntAll d a => Sys2Proof.Machine.execPcntAll d a s
  | .xmset p => Sys2Proof.Machine.execXmset p s
  | .xmpush p => Sys2Proof.Machine.execXmpush p s
  | .xmpop => Sys2Proof.Machine.execXmpop s
  | .xmelse => Sys2Proof.Machine.execXmelse s
  | .sysrd d num => Sys2Proof.Machine.execSysrd d num s
  | .syswr a num => Sys2Proof.Machine.execSyswr a num s
  | .wbase n => Sys2Proof.Machine.execWbase n s
  | .regrel n => Sys2Proof.Machine.execRegrel n s
  | .regclm n => Sys2Proof.Machine.execRegclm n s
  | .rngsetSeed a => Sys2Proof.Machine.execRngsetSeed a s
  | .rngsetCtr a => Sys2Proof.Machine.execRngsetCtr a s
  | .rnggetCtr d => Sys2Proof.Machine.execRnggetCtr d s
  | .rnggetSeed d => Sys2Proof.Machine.execRnggetSeed d s
  | .trap a => Sys2Proof.Machine.execTrap a s
  | .tret => Sys2Proof.Machine.execTret s
  | .brk => Sys2Proof.Machine.execBrk s
  | .nop => Sys2Proof.Machine.execNop s
  | .yield => Sys2Proof.Machine.execYield s
  | .exit => Sys2Proof.Machine.execExit s
  | .vadd d a b t q sat => Sys2Proof.Machine.execVadd d a b t q sat s
  | .vsub d a b t q sat => Sys2Proof.Machine.execVsub d a b t q sat s
  | .vaddi d a imm t q sat => Sys2Proof.Machine.execVaddi d a imm t q sat s
  | .vmul d a b t q sat => Sys2Proof.Machine.execVmul d a b t q sat s
  | .vmulh d a b t q => Sys2Proof.Machine.execVmulh d a b t q s
  | .vmad d a b t q sat => Sys2Proof.Machine.execVmad d a b t q sat s
  | .vdiv d a b t q => Sys2Proof.Machine.execVdiv d a b t q s
  | .vrem d a b t q => Sys2Proof.Machine.execVrem d a b t q s
  | .vand d a b q => Sys2Proof.Machine.execVand d a b q s
  | .vor d a b q => Sys2Proof.Machine.execVor d a b q s
  | .vxor d a b q => Sys2Proof.Machine.execVxor d a b q s
  | .vnot d a q => Sys2Proof.Machine.execVnot d a q s
  | .vshl d a b t q => Sys2Proof.Machine.execVshl d a b t q s
  | .vshr d a b t q => Sys2Proof.Machine.execVshr d a b t q s
  | .vsra d a b t q => Sys2Proof.Machine.execVsra d a b t q s
  | .vmin d a b t q => Sys2Proof.Machine.execVmin d a b t q s
  | .vmax d a b t q => Sys2Proof.Machine.execVmax d a b t q s
  | .vcmpEq d a b t e q => Sys2Proof.Machine.execVcmpEq d a b t e q s
  | .vcmpNe d a b t e q => Sys2Proof.Machine.execVcmpNe d a b t e q s
  | .vcmpLt d a b t e q => Sys2Proof.Machine.execVcmpLt d a b t e q s
  | .vcmpLe d a b t e q => Sys2Proof.Machine.execVcmpLe d a b t e q s
  | .vcmpUn d a b t e q => Sys2Proof.Machine.execVcmpUn d a b t e q s
  | .vsel d a b p q => Sys2Proof.Machine.execVsel d a b p q s
  | .vdp4 d a b sat sb sa q => Sys2Proof.Machine.execVdp4 d a b sat sb sa q s
  | .vdp8 d a b sat sb sa q => Sys2Proof.Machine.execVdp8 d a b sat sb sa q s
  | .vclz d a t q => Sys2Proof.Machine.execVclz d a t q s
  | .vpopc d a t q => Sys2Proof.Machine.execVpopc d a t q s
  | .vmov d a q => Sys2Proof.Machine.execVmov d a q s
  | .vmovBcast d a q => Sys2Proof.Machine.execVmovBcast d a q s
  | .vmovLane d q => Sys2Proof.Machine.execVmovLane d q s
  | .vmovi d imm t q => Sys2Proof.Machine.execVmovi d imm t q s
  | .vfadd d a b t q rnd => Sys2Proof.Machine.execVfadd d a b t q rnd s
  | .vfsub d a b t q rnd => Sys2Proof.Machine.execVfsub d a b t q rnd s
  | .vfmul d a b t q rnd => Sys2Proof.Machine.execVfmul d a b t q rnd s
  | .vfma d a b t q rnd => Sys2Proof.Machine.execVfma d a b t q rnd s
  | .vfms d a b t q rnd => Sys2Proof.Machine.execVfms d a b t q rnd s
  | .vfmin d a b t q => Sys2Proof.Machine.execVfmin d a b t q s
  | .vfmax d a b t q => Sys2Proof.Machine.execVfmax d a b t q s
  | .vcvt d a dst src q rnd sat => Sys2Proof.Machine.execVcvt d a dst src q rnd sat s
  | .vsf d a f q => Sys2Proof.Machine.execVsf d a f q s
  | .vexpr d i0 i1 i2 i3 t toks sat rnef => Sys2Proof.Machine.execVexpr d i0 i1 i2 i3 t toks sat rnef s
  | .vhad d a h32 t q rnd => Sys2Proof.Machine.execVhad d a h32 t q rnd s
  | .vqnt d a dst src had q rnd => Sys2Proof.Machine.execVqnt d a dst src had q rnd s
  | .vshfl d a b t q => Sys2Proof.Machine.execVshfl d a b t q s
  | .vvote op d p b => Sys2Proof.Machine.execVvote op d p b s
  | .vred op d a t q rnd sat => Sys2Proof.Machine.execVred op d a t q rnd sat s
  | .vscan op d a t q rnd sat => Sys2Proof.Machine.execVscan op d a t q rnd sat s
  | .vtopk d a g k t q => Sys2Proof.Machine.execVtopk d a g k t q s
  | .vrng d t q => Sys2Proof.Machine.execVrng d t q s
  | .trd d col tile b aux t q rnd => Sys2Proof.Machine.execTrd d col tile b aux t q rnd s
  | .twr d col tile b aux t q => Sys2Proof.Machine.execTwr d col tile b aux t q s
  | .ttest d col tile b aux q => Sys2Proof.Machine.execTtest d col tile b aux q s
  | .tzero tile => Sys2Proof.Machine.execTzero tile s
  | .vld d a b z q scope nt => Sys2Proof.Machine.execVld d a b z q scope nt s
  | .vldLp d a b z q => Sys2Proof.Machine.execVldLp d a b z q s
  | .vst d a b z q scope nt => Sys2Proof.Machine.execVst d a b z q scope nt s
  | .vstLp d a b z q => Sys2Proof.Machine.execVstLp d a b z q s
  | .vatom32 op d a b q scope noret sp => Sys2Proof.Machine.execVatom32 op d a b q scope noret sp s
  | .vatom64 op d a b q scope noret sp => Sys2Proof.Machine.execVatom64 op d a b q scope noret sp s
  | .tld d a b elog q nt => Sys2Proof.Machine.execTld d a b elog q nt s
  | .tst d a b elog q nt => Sys2Proof.Machine.execTst d a b elog q nt s
  | .spld d a b z q => Sys2Proof.Machine.execSpld d a b z q s
  | .splds d a b q => Sys2Proof.Machine.execSplds d a b q s
  | .spldSt d a b q => Sys2Proof.Machine.execSpldSt d a b q s
  | .spst d a b z q => Sys2Proof.Machine.execSpst d a b z q s
  | .spstf d a b q => Sys2Proof.Machine.execSpstf d a b q s
  | .spset f a b q => Sys2Proof.Machine.execSpset f a b q s
  | .waita c d a b => Sys2Proof.Machine.execWaita c d a b s
  | .waitaSp c d a b => Sys2Proof.Machine.execWaitaSp c d a b s
  | .phase scope => Sys2Proof.Machine.execPhase scope s
  | .phaseRel scope => Sys2Proof.Machine.execPhaseRel scope s
  | .phaseAcq scope => Sys2Proof.Machine.execPhaseAcq scope s
  | .drain => Sys2Proof.Machine.execDrain s
  | .shinv d a b => Sys2Proof.Machine.execShinv d a b s
  | .emit d a b n q => Sys2Proof.Machine.execEmit d a b n q s
  | .emitS d a b n => Sys2Proof.Machine.execEmitS d a b n s
  | .recldV d w c q => Sys2Proof.Machine.execRecldV d w c q s
  | .recldS d w c => Sys2Proof.Machine.execRecldS d w c s
  | .bar a b => Sys2Proof.Machine.execBar a b s
  | .barArv a b => Sys2Proof.Machine.execBarArv a b s
  | .barWt a b => Sys2Proof.Machine.execBarWt a b s
  | .waitpred => Sys2Proof.Machine.execWaitpred s
  | .hintsucc => Sys2Proof.Machine.execHintsucc s
  | .wdq a => Sys2Proof.Machine.execWdq a s
  | .depsetArm d a b => Sys2Proof.Machine.execDepsetArm d a b s
  | .depsetDec d a => Sys2Proof.Machine.execDepsetDec d a s
  | .mmq a => Sys2Proof.Machine.execMmq a s
  | .cpq a => Sys2Proof.Machine.execCpq a s
  | .freezePointReached u c => Sys2Proof.Machine.execFreezePointReached u c s
  | .compactorMoveDone u c => Sys2Proof.Machine.execCompactorMoveDone u c s
  | .placementRound die => Sys2Proof.Machine.execPlacementRound die s
  | .nodeAges slot node => Sys2Proof.Machine.execNodeAges slot node s
  | .reservationTake slot node elem => Sys2Proof.Machine.execReservationTake slot node elem s
  | .lingerExpiry slot node elem => Sys2Proof.Machine.execLingerExpiry slot node elem s
  | .evictionClaim die => Sys2Proof.Machine.execEvictionClaim die s
  | .evictionSaveComplete u => Sys2Proof.Machine.execEvictionSaveComplete u s
  | .runlimitExpiry u => Sys2Proof.Machine.execRunlimitExpiry u s
  | .graphdeadlock slot => Sys2Proof.Machine.execGraphdeadlock slot s
  | .instanceComplete slot => Sys2Proof.Machine.execInstanceComplete slot s
  | .emitWake u c => Sys2Proof.Machine.execEmitWake u c s
  | .counterPendingEnqueue slot ctr => Sys2Proof.Machine.execCounterPendingEnqueue slot ctr s
  | .loamSpill die cluster => Sys2Proof.Machine.execLoamSpill die cluster s
  | .loamRefill slot node elem => Sys2Proof.Machine.execLoamRefill slot node elem s
  | .remoteRecordArrival src die sn tag granted r => Sys2Proof.Machine.execRemoteRecordArrival src die sn tag granted r s
  | .remoteRecordRefused id => Sys2Proof.Machine.execRemoteRecordRefused id s
  | .dropNotice id => Sys2Proof.Machine.execDropNotice id s
  | .reservationRequest src tag node elem n => Sys2Proof.Machine.execReservationRequest src tag node elem n s
  | .reservationGrant dev tag node elem n => Sys2Proof.Machine.execReservationGrant dev tag node elem n s
  | .reservationExpiry id => Sys2Proof.Machine.execReservationExpiry id s
  | .remoteRecordAck id => Sys2Proof.Machine.execRemoteRecordAck id s
  | .wdqAnswer id => Sys2Proof.Machine.execWdqAnswer id s
  | .taskMma core id => Sys2Proof.Machine.execTaskMma core id s
  | .taskMmaSc core id => Sys2Proof.Machine.execTaskMmaSc core id s
  | .taskMmaInt core id => Sys2Proof.Machine.execTaskMmaInt core id s
  | .taskRingdef core id => Sys2Proof.Machine.execTaskRingdef core id s
  | .taskTclear core id => Sys2Proof.Machine.execTaskTclear core id s
  | .matrixStep core id => Sys2Proof.Machine.execMatrixStep core id s
  | .jobCopy core id n => Sys2Proof.Machine.execJobCopy core id n s
  | .jobCopy2d core id n => Sys2Proof.Machine.execJobCopy2d core id n s
  | .jobGatherbt core id n => Sys2Proof.Machine.execJobGatherbt core id n s
  | .jobWiden core id n => Sys2Proof.Machine.execJobWiden core id n s
  | .jobFillwb core id n => Sys2Proof.Machine.execJobFillwb core id n s
  | .itemRetire core id => Sys2Proof.Machine.execItemRetire core id s
  | .itemFailure core id => Sys2Proof.Machine.execItemFailure core id s
  | .cowCopyDone die ctx page => Sys2Proof.Machine.execCowCopyDone die ctx page s
  | .translationOutcome u c page rewalk => Sys2Proof.Machine.execTranslationOutcome u c page rewalk s
  | .pageAnswer die page ctx gen fail => Sys2Proof.Machine.execPageAnswer die page ctx gen fail s
  | .shootdown die ctx page => Sys2Proof.Machine.execShootdown die ctx page s
  | .contextKill ctx => Sys2Proof.Machine.execContextKill ctx s
  | .loadReturn id stamps => Sys2Proof.Machine.execLoadReturn id stamps s
  | .storePerformed id l1 => Sys2Proof.Machine.execStorePerformed id l1 s
  | .remoteRequest src rid ctx gen va k => Sys2Proof.Machine.execRemoteRequest src rid ctx gen va k s
  | .remoteResponse rid v fail => Sys2Proof.Machine.execRemoteResponse rid v fail s
  | .remoteTimeout rid => Sys2Proof.Machine.execRemoteTimeout rid s
  | .waitaWatchAnswer rid v => Sys2Proof.Machine.execWaitaWatchAnswer rid v s
  | .waitaWatchRenew rid => Sys2Proof.Machine.execWaitaWatchRenew rid s
  | .shinvRelay parent rid tensor children => Sys2Proof.Machine.execShinvRelay parent rid tensor children s
  | .shinvAck id child => Sys2Proof.Machine.execShinvAck id child s
  | .shinvFence id child grand => Sys2Proof.Machine.execShinvFence id child grand s
  | .atsTranslationResponse ctx page bus w => Sys2Proof.Machine.execAtsTranslationResponse ctx page bus w s
  | .atsInvalidation ctx page => Sys2Proof.Machine.execAtsInvalidation ctx page s
  | .priResponse ctx page ok => Sys2Proof.Machine.execPriResponse ctx page ok s
  | .laneFailure port lane => Sys2Proof.Machine.execLaneFailure port lane s
  | .deviceAdmit dev => Sys2Proof.Machine.execDeviceAdmit dev s
  | .mailboxSend slot j msg => Sys2Proof.Machine.execMailboxSend slot j msg s
  | .uncorrectableError line => Sys2Proof.Machine.execUncorrectableError line s
  | .correctedError => Sys2Proof.Machine.execCorrectedError s
  | .thermalLimit block => Sys2Proof.Machine.execThermalLimit block s
  | .reset => Sys2Proof.Machine.execReset s
  | .firmwareVerifyDone devid porten membytes => Sys2Proof.Machine.execFirmwareVerifyDone devid porten membytes s
  | .fwlockWrite v => Sys2Proof.Machine.execFwlockWrite v s
  | .loadWindowWrite off data => Sys2Proof.Machine.execLoadWindowWrite off data s
  | .registerWrite off v => Sys2Proof.Machine.execRegisterWrite off v s
  | .getVersion => Sys2Proof.Machine.execGetVersion s
  | .getCapabilities => Sys2Proof.Machine.execGetCapabilities s
  | .negotiateAlgorithms => Sys2Proof.Machine.execNegotiateAlgorithms s
  | .getDigests => Sys2Proof.Machine.execGetDigests s
  | .getCertificate => Sys2Proof.Machine.execGetCertificate s
  | .challenge nonce => Sys2Proof.Machine.execChallenge nonce s
  | .getMeasurements nonce => Sys2Proof.Machine.execGetMeasurements nonce s
  | .walkerVisit qsb => Sys2Proof.Machine.execWalkerVisit qsb s
  | .packetNop qsb => Sys2Proof.Machine.execPacketNop qsb s
  | .graphLaunch qsb => Sys2Proof.Machine.execGraphLaunch qsb s
  | .writeValue qsb => Sys2Proof.Machine.execWriteValue qsb s
  | .writeValueDone qsb => Sys2Proof.Machine.execWriteValueDone qsb s
  | .waitValue qsb => Sys2Proof.Machine.execWaitValue qsb s
  | .indirect qsb => Sys2Proof.Machine.execIndirect qsb s
  | .checkpointStart bound => Sys2Proof.Machine.execCheckpointStart bound s
  | .checkpointQuiesced => Sys2Proof.Machine.execCheckpointQuiesced s
  | .checkpointTimeout => Sys2Proof.Machine.execCheckpointTimeout s
  | .checkpointRestore k => Sys2Proof.Machine.execCheckpointRestore k s
  | .waitaWatch src rid ctx gen va => Sys2Proof.Machine.execWaitaWatch src rid ctx gen va s
  | .wakeConditionRecheck u c => Sys2Proof.Machine.execWakeConditionRecheck u c s

end Sys2Proof.Machine
end

