-- ==== Sys2Proof/Decode.lean ====
section
/-! DEFINITION. The decoder: one issue unit of 32-bit words (R249 to R261, R269) to an instruction or
a named refusal, total on any words; and after it the encoder, written from the same tables. A refused
unit raises ILLEGAL (R251). -/

namespace Sys2Proof

/-- Why a unit is refused (R250, R251, R256 to R261). Every one raises ILLEGAL. -/
inductive DecodeErr where
  /-- OP not assigned, or the zero word (R269). -/
  | opcode
  /-- A minor function or another function code that the opcode does not assign (R251). -/
  | minor
  /-- A reserved field that is not zero (R252). -/
  | reserved
  /-- A type or size code the instruction does not accept (R257, R258). -/
  | typeCode
  /-- A register field beyond R254. -/
  | register
  /-- A repeated prefix, or one before an instruction that accepts none (R250). -/
  | prefixWord
  /-- A non-zero XP field the instruction does not accept (R256). -/
  | xpField
  /-- An operand value the entry rejects (R51, R261, R339, R351). -/
  | operand
deriving DecidableEq, Repr

/-- The XP fields (R255). -/
structure Xp where
  hd : Nat
  ha : Nat
  hb : Nat
  bs : Nat
  pred : Nat
  neg : Nat
  rnd : Nat
  sat : Nat
  scope : Nat
  nt : Nat
  aux : Nat
deriving DecidableEq, Repr

/-- The fields of an XP word (R255). -/
def Xp.ofWord (w : Nat) : Xp :=
  { hd := w / 16777216 % 2, ha := w / 8388608 % 2, hb := w / 4194304 % 2, bs := w / 2097152 % 2,
    pred := w / 131072 % 16, neg := w / 65536 % 2, rnd := w / 8192 % 8, sat := w / 4096 % 2,
    scope := w / 512 % 8, nt := w / 256 % 2, aux := w % 256 }

/-- An XP word (R255). -/
def Xp.toWord (x : Xp) : Nat :=
  4261412864 + x.hd * 16777216 + x.ha * 8388608 + x.hb * 4194304 + x.bs * 2097152
    + x.pred * 131072 + x.neg * 65536 + x.rnd * 8192 + x.sat * 4096 + x.scope * 512
    + x.nt * 256 + x.aux

/-- No XP field set. -/
def Xp.zero : Xp := ⟨0, 0, 0, 0, 0, 0, 0, 0, 0, 0, 0⟩

/-- The predication of an XP word (R24, R255). -/
def Xp.q (x : Xp) : Pred := ⟨x.pred, x.neg == 1⟩

/-- Which XP fields an instruction accepts (R256 and its entry). `pn` is PRED and NEG, `sr` whether
RND 6 is legal (R157). -/
structure Allow where
  hd : Bool := false
  ha : Bool := false
  hb : Bool := false
  bs : Bool := false
  pn : Bool := false
  rnd : Bool := false
  sr : Bool := false
  sat : Bool := false
  scope : Bool := false
  nt : Bool := false
  aux : Bool := false
deriving DecidableEq, Repr

/-- R256: every non-zero field is accepted, NEG has a predicate, RND is no 7 and no 6 unless legal,
SCOPE is at most 4. -/
def Xp.ok (x : Xp) (a : Allow) : Bool :=
  (a.hd || x.hd == 0) && (a.ha || x.ha == 0) && (a.hb || x.hb == 0) && (a.bs || x.bs == 0)
    && (a.pn || (x.pred == 0 && x.neg == 0)) && (x.neg == 0 || x.pred != 0)
    && (a.rnd || x.rnd == 0) && x.rnd != 7 && (a.sr || x.rnd != 6) && (a.sat || x.sat == 0)
    && (a.scope || x.scope == 0) && decide (x.scope ≤ 4) && (a.nt || x.nt == 0)
    && (a.aux || x.aux == 0)

/-- The words of one issue unit (R250): its prefixes, its word, and for VEXPR the two words after. -/
structure Raw where
  limm : Option Nat
  xp : Option Nat
  w : Nat
  w2 : Nat
  w3 : Nat
deriving DecidableEq, Repr

/-- Fields of R252. -/
abbrev Raw.op (r : Raw) : Nat := r.w / 33554432
abbrev Raw.fd (r : Raw) : Nat := r.w / 262144 % 128
abbrev Raw.fa (r : Raw) : Nat := r.w / 2048 % 128
abbrev Raw.fb (r : Raw) : Nat := r.w / 16 % 128
abbrev Raw.ft (r : Raw) : Nat := r.w % 16
/-- The XP fields, zero without a prefix. -/
def Raw.x (r : Raw) : Xp := match r.xp with
  | none => .zero
  | some w => .ofWord w
/-- Register fields with their high bits (R254). -/
def Raw.d (r : Raw) : Nat := r.fd + 128 * r.x.hd
def Raw.a (r : Raw) : Nat := r.fa + 128 * r.x.ha
def Raw.b (r : Raw) : Nat := r.fb + 128 * r.x.hb
/-- Operand B of format V (R252). -/
def Raw.vb (r : Raw) : VOp := if r.x.bs = 1 then .s r.b else .v r.b
/-- The type code (R257). -/
def Raw.t (r : Raw) : Ty := .ofCode r.ft
/-- The size code without T[3] (R258). -/
def Raw.z (r : Raw) : Size := .ofCode (r.ft % 8)
/-- Sign extension of a `k`-bit number. -/
def sxt (k n : Nat) : Int := if n < 2 ^ (k - 1) then (n : Int) else (n : Int) - (2 ^ k : Nat)
/-- The immediate of format SI (R253). -/
def Raw.imm (r : Raw) : Int := match r.limm with
  | none => sxt 11 (r.w % 2048)
  | some l => sxt 36 (l % 33554432 * 2048 + r.w % 2048)
/-- imm7 (R253). -/
def Raw.imm7 (r : Raw) : Int := sxt 7 r.fb
/-- OFF14 (R253). -/
def Raw.off (r : Raw) : Int := sxt 14 (r.w % 16384)

/-- Answer `k` if `b` holds, else the refusal. -/
def need (b : Bool) (e : DecodeErr) (k : Except DecodeErr Instr) : Except DecodeErr Instr :=
  if b then k else .error e

/-- The prefixes of an instruction that accepts the XP fields `al` and no LIMM. -/
def Raw.acc (r : Raw) (al : Allow) (k : Except DecodeErr Instr) : Except DecodeErr Instr :=
  need r.limm.isNone .prefixWord (need (r.x.ok al) .xpField k)

/-- The same for format SI, which accepts LIMM (R253). -/
def Raw.accI (r : Raw) (al : Allow) (k : Except DecodeErr Instr) : Except DecodeErr Instr :=
  need (r.x.ok al) .xpField k

/-- An instruction that accepts no XP prefix, not even a zero one (R366). -/
def Raw.noXp (r : Raw) (k : Except DecodeErr Instr) : Except DecodeErr Instr :=
  need r.xp.isNone .prefixWord k

/-- An instruction that accepts no prefix at all. -/
def Raw.bare (r : Raw) (k : Except DecodeErr Instr) : Except DecodeErr Instr :=
  need (r.limm.isNone && r.xp.isNone) .prefixWord k

/-- Three scalar operands (R318). -/
def Raw.s3 (r : Raw) (k : Nat → Nat → Nat → Instr) : Except DecodeErr Instr :=
  r.acc { hd := true, ha := true, hb := true } <|
  need (wfS r.d r.a r.b) .register <| .ok (k r.d r.a r.b)

/-- Two scalar operands, B zero (R318). -/
def Raw.s2 (r : Raw) (k : Nat → Nat → Instr) : Except DecodeErr Instr :=
  r.acc { hd := true, ha := true } <| need (r.fb == 0) .reserved <|
  need (sOk r.d && sOk r.a) .register <| .ok (k r.d r.a)

/-- A shift by an immediate (R318): B[6] zero. -/
def Raw.sh (r : Raw) (k : Nat → Nat → Nat → Instr) : Except DecodeErr Instr :=
  r.acc { hd := true, ha := true } <| need (decide (r.fb < 64)) .reserved <|
  need (sOk r.d && sOk r.a) .register <| .ok (k r.d r.a r.fb)

/-- D and A scalar with an immediate (R319). -/
def Raw.si (r : Raw) (k : Nat → Nat → Int → Instr) : Except DecodeErr Instr :=
  r.accI { hd := true, ha := true } <| need (sOk r.d && sOk r.a) .register <|
  .ok (k r.d r.a r.imm)

/-- An immediate alone: D and A zero, no XP (R315, R363). -/
def Raw.i0 (r : Raw) (k : Int → Instr) : Except DecodeErr Instr :=
  r.noXp <| need (r.fd == 0 && r.fa == 0) .reserved <| .ok (k r.imm)

/-- Format S with A alone (R175, R309, R317, R329). -/
def Raw.sA (r : Raw) (k : Nat → Instr) : Except DecodeErr Instr :=
  r.acc { ha := true } <| need (r.fd == 0 && r.fb == 0) .reserved <|
  need (sOk r.a) .register <| .ok (k r.a)

/-- Format S with D alone (R317). -/
def Raw.sD (r : Raw) (k : Nat → Instr) : Except DecodeErr Instr :=
  r.acc { hd := true } <| need (r.fa == 0 && r.fb == 0) .reserved <|
  need (sOk r.d) .register <| .ok (k r.d)

/-- No operand and no prefix. -/
def Raw.nul (r : Raw) (i : Instr) : Except DecodeErr Instr :=
  r.bare <| need (r.fd == 0 && r.fa == 0 && r.fb == 0) .reserved <| .ok i

/-- Predicate logic (R312). -/
def Raw.p3 (r : Raw) (k : Nat → Nat → Nat → Instr) : Except DecodeErr Instr :=
  r.bare <| need (pOk r.fd && pOk r.fa && pOk r.fb) .reserved <| .ok (k r.fd r.fa r.fb)

/-- PCNT (R313). -/
def Raw.pc (r : Raw) (k : Nat → Nat → Instr) : Except DecodeErr Instr :=
  r.acc { hd := true } <| need (pOk r.fa && r.fb == 0) .reserved <|
  need (sOk r.d) .register <| .ok (k r.d r.fa)

/-- XMSET and XMPUSH (R365). -/
def Raw.xm (r : Raw) (k : Nat → Instr) : Except DecodeErr Instr :=
  r.bare <| need (r.fd == 0 && pOk r.fa && r.fb == 0) .reserved <| .ok (k r.fa)

/-- Format V with operand B (R252); `ty` the types accepted. -/
def Raw.v3 (r : Raw) (al : Allow) (ty : Ty → Bool) (k : Nat → Nat → VOp → Ty → Instr) :
    Except DecodeErr Instr :=
  r.acc { al with hd := true, ha := true, hb := true, bs := true, pn := true } <|
  need (ty r.t) .typeCode <| need r.vb.wf .register <| .ok (k r.d r.a r.vb r.t)

/-- Format V without operand B; `ty` the types accepted. -/
def Raw.v2 (r : Raw) (al : Allow) (ty : Ty → Bool) (k : Nat → Nat → Ty → Instr) :
    Except DecodeErr Instr :=
  r.acc { al with hd := true, ha := true, pn := true } <|
  need (ty r.t) .typeCode <| .ok (k r.d r.a r.t)

/-- VCMP (R273, R337). -/
def Raw.cmp (r : Raw) (ty : Ty → Bool) (k : Nat → Nat → VOp → Ty → Nat → Instr) :
    Except DecodeErr Instr :=
  r.acc { ha := true, hb := true, bs := true, pn := true, aux := true } <|
  need (pOk r.fd) .reserved <| need (r.t != .e2m1s && ty r.t) .typeCode <|
  need (decide (r.x.aux < r.t.count)) .operand <| need r.vb.wf .register <|
  .ok (k r.fd r.a r.vb r.t r.x.aux)

/-- VDP4 and VDP8 (R341). -/
def Raw.dp (r : Raw) (k : Nat → Nat → Nat → Bool → Bool → Bool → Instr) :
    Except DecodeErr Instr :=
  r.acc { hd := true, ha := true, hb := true, pn := true } <|
  need (decide (r.ft < 8)) .reserved <|
  .ok (k r.d r.a r.b (r.ft / 4 == 1) (r.ft / 2 % 2 == 1) (r.ft % 2 == 1))

/-- Format SM (R323). -/
def Raw.sm (r : Raw) (k : Nat → Nat → Int → Size → Nat → Bool → Instr) : Except DecodeErr Instr :=
  r.acc { hd := true, ha := true, scope := true, nt := true } <|
  need (decide (r.ft < 6)) .typeCode <|
  need (sOk r.d && decide (r.d + r.z.regs ≤ 192) && sOk r.a) .register <|
  .ok (k r.d r.a r.imm7 r.z r.x.scope (r.x.nt == 1))

/-- Format M with a size code, global (R347). -/
def Raw.mg (r : Raw) (k : Nat → Nat → Nat → Size → Nat → Bool → Instr) : Except DecodeErr Instr :=
  r.acc { hd := true, ha := true, hb := true, pn := true, scope := true, nt := true } <|
  need (decide (r.ft % 8 < 6)) .typeCode <| need (sOk r.b) .register <|
  .ok (k r.d r.a r.b r.z r.x.scope (r.x.nt == 1))

/-- Format M with a size code, lane-private (R104, R347). -/
def Raw.ml (r : Raw) (k : Nat → Nat → Nat → Size → Instr) : Except DecodeErr Instr :=
  r.acc { hd := true, ha := true, hb := true, pn := true } <|
  need (decide (r.ft % 8 < 6)) .typeCode <| need (sOk r.b) .register <|
  .ok (k r.d r.a r.b r.z)

/-- The scratchpad group (R276, R324): the XP fields and B. -/
def Raw.sp (r : Raw) (ok : Bool) (i : Instr) : Except DecodeErr Instr :=
  r.acc { hd := true, ha := true, hb := true, pn := true, aux := true } <|
  need ok .typeCode <| need (sOk r.b) .register <| .ok i

/-- The operation of VATOM (R335). -/
def AtOp.ofCode : Nat → AtOp
  | 0 => .add | 1 => .min | 2 => .max | 3 => .minu | 4 => .maxu | 5 => .and | 6 => .or
  | 7 => .xor | 8 => .xchg | 9 => .cas | _ => .fadd

/-- VATOM (R335); `n` the operations of the opcode. -/
def Raw.at_ (r : Raw) (n : Nat)
    (k : AtOp → Nat → Nat → Nat → Nat → Bool → Bool → Instr) : Except DecodeErr Instr :=
  r.acc { hd := true, ha := true, hb := true, pn := true, scope := true, aux := true } <|
  need (decide (r.ft < n)) .minor <| need (decide (r.x.aux < 4)) .xpField <|
  need (sOk r.b) .register <|
  .ok (k (.ofCode r.ft) r.d r.a r.b r.x.scope (r.x.aux % 2 == 1) (r.x.aux / 2 == 1))

/-- TLD and TST (R144, R328). -/
def Raw.tl (r : Raw) (k : Nat → Nat → Nat → Nat → Bool → Instr) : Except DecodeErr Instr :=
  r.acc { hd := true, ha := true, hb := true, pn := true, nt := true } <|
  need (decide (r.ft < 4)) .typeCode <| need (sOk r.b) .register <|
  .ok (k r.d r.a r.b r.ft (r.x.nt == 1))

/-- Format TS (R252, R331): RC is A[6], TILE is A[5:0]. -/
def Raw.ts (r : Raw) (rnd : Bool) (ok : Bool) (k : Nat → Bool → Nat → Nat → Nat → Instr) :
    Except DecodeErr Instr :=
  r.acc { hd := true, hb := true, pn := true, aux := true, rnd := rnd } <|
  need ok .typeCode <| need (sOk r.b) .register <|
  .ok (k r.d (r.fa / 64 == 1) (r.fa % 64) r.b r.x.aux)

/-- BAR (R296): D and B[6:4] zero. -/
def Raw.br (r : Raw) (k : Nat → Nat → Instr) : Except DecodeErr Instr :=
  r.acc { ha := true } <| need (r.fd == 0 && decide (r.fb < 16)) .reserved <|
  need (sOk r.a) .register <| .ok (k r.a r.fb)

/-- PHASE (R113). -/
def Raw.ph (r : Raw) (k : Nat → Instr) : Except DecodeErr Instr :=
  r.acc { scope := true } <| need (r.fd == 0 && r.fa == 0 && r.fb == 0) .reserved <|
  .ok (k r.x.scope)

/-- VRED and VSCAN (R352). -/
def Raw.red (r : Raw) (k : RedOp → Nat → Nat → Ty → Pred → Nat → Bool → Instr) :
    Except DecodeErr Instr :=
  r.acc { hd := true, ha := true, pn := true, rnd := true, sat := r.t.isInt && r.fb == 0 } <|
  need (r.t.isInt || r.t.isArith) .typeCode <|
  match r.fb with
  | 0 => .ok (k .add r.d r.a r.t r.x.q r.x.rnd (r.x.sat == 1))
  | 1 => .ok (k .min r.d r.a r.t r.x.q r.x.rnd (r.x.sat == 1))
  | 2 => .ok (k .max r.d r.a r.t r.x.q r.x.rnd (r.x.sat == 1))
  | _ => .error .minor

/-- The tokens of VEXPR (R260). -/
def Raw.toks (r : Raw) : List Tok :=
  [r.w2 / 16384 % 16, r.w2 / 1024 % 16, r.w2 / 64 % 16, r.w2 / 4 % 16,
   r.w3 / 268435456 % 16, r.w3 / 16777216 % 16, r.w3 / 1048576 % 16, r.w3 / 65536 % 16,
   r.w3 / 4096 % 16, r.w3 / 256 % 16, r.w3 / 16 % 16, r.w3 % 16].map Tok.ofCode

/-- Branches (R259, R295). -/
def decodeBranch (r : Raw) : Except DecodeErr Instr :=
  let reg := r.w / 16384 % 128
  r.bare <| match r.w / 2097152 % 16 with
  | 0 => need (reg == 0) .reserved <| .ok (.bra r.off)
  | 1 => .ok (.bcc .z reg r.off)
  | 2 => .ok (.bcc .nz reg r.off)
  | 3 => .ok (.bcc .lt reg r.off)
  | 4 => .ok (.bcc .ge reg r.off)
  | 5 => .ok (.bcc .gt reg r.off)
  | 6 => .ok (.bcc .le reg r.off)
  | 7 => need (decide (reg < 16)) .reserved <| .ok (.bccPred .pany reg r.off)
  | 8 => need (decide (reg < 16)) .reserved <| .ok (.bccPred .pnone reg r.off)
  | 9 => need (decide (reg < 16)) .reserved <| .ok (.bccPred .pall reg r.off)
  | _ => .error .minor

/-- The scalar and control opcodes 0x01 to 0x1F (R269). -/
def decodeScalar (r : Raw) : Except DecodeErr Instr :=
  match r.op with
  | 0x01 => match r.ft with
    | 0 => r.s3 .sadd | 1 => r.s3 .ssub | _ => .error .minor
  | 0x02 => r.si .saddi
  | 0x03 => match r.ft with
    | 0 => r.s3 .smul | 1 => r.s3 .smulh | 2 => r.s3 .smulhN | _ => .error .minor
  | 0x04 => match r.ft with
    | 0 => r.s3 .sand | 1 => r.s3 .sor | 2 => r.s3 .sxor | 3 => r.s3 .sandn | _ => .error .minor
  | 0x05 => r.si .sandi
  | 0x06 => r.si .sori
  | 0x07 => r.si .sxori
  | 0x08 => match r.ft with
    | 0 => r.s3 .sshl | 1 => r.s3 .sshr | 2 => r.s3 .ssra
    | 8 => r.sh .sshlImm | 9 => r.sh .sshrImm | 10 => r.sh .ssraImm | _ => .error .minor
  | 0x09 => match r.ft with
    | 0 => r.s3 (.sset .eq) | 1 => r.s3 (.sset .ne) | 2 => r.s3 (.sset .lt)
    | 3 => r.s3 (.sset .ge) | 4 => r.s3 (.sset .ltn) | 5 => r.s3 (.sset .gen)
    | _ => .error .minor
  | 0x0A => match r.ft with
    | 0 => r.s3 .smin | 1 => r.s3 .smax | 2 => r.s3 .sminN | 3 => r.s3 .smaxN
    | _ => .error .minor
  | 0x0B => match r.ft with
    | 0 => r.s2 .smov | _ => .error .minor
  | 0x0C => match r.ft with
    | 0 => r.acc { hd := true, ha := true, hb := true, pn := true } <|
        need (wfS r.d r.a r.b) .register <| .ok (.ssel r.d r.a r.b r.x.q)
    | _ => .error .minor
  | 0x0D => r.accI { hd := true } <| need (sOk r.d) .register <| match r.fa with
    | 0 => .ok (.smovi r.d r.imm) | 1 => .ok (.smoviHi r.d r.imm) | _ => .error .reserved
  | 0x0E => match r.ft with
    | 0 => r.s3 .sbfx | 1 => r.s3 .sbfxN | 2 => r.s3 .sbfi | _ => .error .minor
  | 0x0F => match r.ft with
    | 0 => r.s2 .sclz | 1 => r.s2 .spopc | _ => .error .minor
  | 0x10 => r.sm .sld
  | 0x11 => r.sm .sst
  | 0x12 => decodeBranch r
  | 0x13 => r.bare <| need (r.w / 16384 % 2048 == 0) .reserved <| .ok (.call r.off)
  | 0x14 => match r.ft with
    | 0 => r.nul .ret | 1 => r.sA .jmpi | _ => .error .minor
  | 0x15 => match r.ft with
    | 0 => r.p3 .pand | 1 => r.p3 .por | 2 => r.p3 .pxor
    | 3 => r.bare <| need (pOk r.fd && pOk r.fa && r.fb == 0) .reserved <| .ok (.pnot r.fd r.fa)
    | _ => .error .minor
  | 0x16 => match r.ft with
    | 0 => r.pc .pcnt | 1 => r.pc .pcntAny | 2 => r.pc .pcntAll | _ => .error .minor
  | 0x17 => match r.ft with
    | 0 => r.xm .xmset | 1 => r.xm .xmpush | 2 => r.nul .xmpop | 3 => r.nul .xmelse
    | _ => .error .minor
  | 0x18 => r.accI { hd := true } <| need (r.fa == 0) .reserved <| need (sOk r.d) .register <|
      .ok (.sysrd r.d r.imm)
  | 0x19 => r.accI { ha := true } <| need (r.fd == 0) .reserved <| need (sOk r.a) .register <|
      .ok (.syswr r.a r.imm)
  | 0x1A => r.i0 .wbase
  | 0x1B => r.i0 .regrel
  | 0x1C => r.i0 .regclm
  | 0x1D => match r.ft with
    | 0 => r.sA .rngsetSeed | 1 => r.sA .rngsetCtr | 2 => r.sD .rnggetCtr | 3 => r.sD .rnggetSeed
    | _ => .error .minor
  | 0x1E => match r.ft with
    | 0 => r.sA .trap | 1 => r.nul .tret | 2 => r.nul .brk | _ => .error .minor
  | 0x1F => match r.ft with
    | 0 => r.nul .nop | 1 => r.nul .yield | 2 => r.nul .exit | _ => .error .minor
  | _ => .error .opcode

/-- The vector, cross-lane and tile opcodes 0x20 to 0x4E (R269). -/
def decodeVector (r : Raw) : Except DecodeErr Instr :=
  let q := r.x.q
  let sat := r.x.sat == 1
  let rnd := r.x.rnd
  match r.op with
  | 0x20 => r.v3 { sat := true } Ty.isInt fun d a b t => .vadd d a b t q sat
  | 0x21 => r.v3 { sat := true } Ty.isInt fun d a b t => .vsub d a b t q sat
  | 0x22 => r.v2 { sat := true } Ty.isInt fun d a t => .vaddi d a r.imm7 t q sat
  | 0x23 => r.v3 { sat := true } Ty.isInt fun d a b t => .vmul d a b t q sat
  | 0x24 => r.v3 {} Ty.isInt fun d a b t => .vmulh d a b t q
  | 0x25 => r.v3 { sat := true } Ty.isInt fun d a b t => .vmad d a b t q sat
  | 0x26 => r.v3 {} Ty.isInt fun d a b t => .vdiv d a b t q
  | 0x27 => r.v3 {} Ty.isInt fun d a b t => .vrem d a b t q
  | 0x28 => match r.ft with
    | 0 => r.v3 {} (fun _ => true) fun d a b _ => .vand d a b q
    | 1 => r.v3 {} (fun _ => true) fun d a b _ => .vor d a b q
    | 2 => r.v3 {} (fun _ => true) fun d a b _ => .vxor d a b q
    | 3 => need (r.fb == 0) .reserved <| r.v2 {} (fun _ => true) fun d a _ => .vnot d a q
    | _ => .error .minor
  | 0x29 => r.v3 {} Ty.isInt fun d a b t => .vshl d a b t q
  | 0x2A => r.v3 {} Ty.isInt fun d a b t => .vshr d a b t q
  | 0x2B => r.v3 {} Ty.isInt fun d a b t => .vsra d a b t q
  | 0x2C => r.v3 {} Ty.isInt fun d a b t => .vmin d a b t q
  | 0x2D => r.v3 {} Ty.isInt fun d a b t => .vmax d a b t q
  | 0x2E => r.cmp (fun _ => true) fun d a b t e => .vcmpEq d a b t e q
  | 0x2F => r.cmp (fun _ => true) fun d a b t e => .vcmpNe d a b t e q
  | 0x30 => r.cmp (fun _ => true) fun d a b t e => .vcmpLt d a b t e q
  | 0x31 => r.cmp (fun _ => true) fun d a b t e => .vcmpLe d a b t e q
  | 0x32 => r.cmp (fun t => !t.isInt) fun d a b t e => .vcmpUn d a b t e q
  | 0x33 => r.v3 {} (fun _ => true) fun d a b _ => .vsel d a b r.ft q
  | 0x34 => r.dp fun d a b s sb sa => .vdp4 d a b s sb sa q
  | 0x35 => r.dp fun d a b s sb sa => .vdp8 d a b s sb sa q
  | 0x36 => match r.fb with
    | 0 => r.v2 {} Ty.isInt fun d a t => .vclz d a t q
    | 1 => r.v2 {} Ty.isInt fun d a t => .vpopc d a t q
    | _ => .error .minor
  | 0x37 => need (r.fb == 0) .reserved <| match r.ft with
    | 0 => r.v2 {} (fun _ => true) fun d a _ => .vmov d a q
    | 1 => need (sOk r.a) .register <| r.v2 {} (fun _ => true) fun d a _ => .vmovBcast d a q
    | 2 => need (r.fa == 0) .reserved <| r.acc { hd := true, pn := true } <| .ok (.vmovLane r.d q)
    | _ => .error .minor
  | 0x38 => need (r.fa == 0) .reserved <| r.acc { hd := true, pn := true } <|
      need r.t.isInt .typeCode <| .ok (.vmovi r.d r.imm7 r.t q)
  | 0x39 => r.v3 { rnd := true } Ty.isArith fun d a b t => .vfadd d a b t q rnd
  | 0x3A => r.v3 { rnd := true } Ty.isArith fun d a b t => .vfsub d a b t q rnd
  | 0x3B => r.v3 { rnd := true } Ty.isArith fun d a b t => .vfmul d a b t q rnd
  | 0x3C => r.v3 { rnd := true } Ty.isArith fun d a b t => .vfma d a b t q rnd
  | 0x3D => r.v3 { rnd := true } Ty.isArith fun d a b t => .vfms d a b t q rnd
  | 0x3E => r.v3 {} Ty.isArith fun d a b t => .vfmin d a b t q
  | 0x3F => r.v3 {} Ty.isArith fun d a b t => .vfmax d a b t q
  | 0x40 => need (decide (r.fb < 16)) .reserved <|
      r.v2 { rnd := true, sr := srLegal r.t (.ofCode r.fb), sat := cvtSatLegal r.t (.ofCode r.fb) }
        (fun t => t != Ty.ofCode r.fb) fun d a t => .vcvt d a t (.ofCode r.fb) q rnd sat
  | 0x41 => need (r.fb == 0) .reserved <| match r.ft with
    | 0 => r.v2 {} (fun _ => true) fun d a _ => .vsf d a .rcp q
    | 1 => r.v2 {} (fun _ => true) fun d a _ => .vsf d a .rsq q
    | 2 => r.v2 {} (fun _ => true) fun d a _ => .vsf d a .exp2 q
    | 3 => r.v2 {} (fun _ => true) fun d a _ => .vsf d a .log2 q
    | 4 => r.v2 {} (fun _ => true) fun d a _ => .vsf d a .sin q
    | 5 => r.v2 {} (fun _ => true) fun d a _ => .vsf d a .cos q
    | 6 => r.v2 {} (fun _ => true) fun d a _ => .vsf d a .tanh q
    | 7 => r.v2 {} (fun _ => true) fun d a _ => .vsf d a .sqrt q
    | _ => .error .minor
  | 0x42 => r.bare <| need (r.t == .f32 || r.t == .bf16) .typeCode <|
      need (exprOk 0 r.toks) .operand <|
      .ok (.vexpr r.fd r.fa r.fb (r.w2 / 33554432 % 128) (r.w2 / 262144 % 128) r.t r.toks
        (r.w2 / 2 % 2 == 1) (r.w2 % 2 == 1))
  | 0x43 => need (decide (r.fb < 2)) .reserved <|
      r.v2 { rnd := true } (fun t => t == .f32 || t == .bf16)
        fun d a t => .vhad d a (r.fb == 1) t q rnd
  | 0x44 => need (decide (r.fb < 48)) .reserved <|
      r.v2 { rnd := true, sr := true } (fun t => (t == .e2m1s || t == .e4m3 || t == .e5m2 || t == .s8)
          && (Ty.ofCode (r.fb % 16) == .f32 || Ty.ofCode (r.fb % 16) == .bf16))
        fun d a t => .vqnt d a t (.ofCode (r.fb % 16)) (r.fb / 16) q rnd
  | 0x45 => r.v3 {} (fun t => t != .e2m1s) fun d a b t => .vshfl d a b t q
  | 0x46 => r.acc { hd := true, hb := true } <| need (pOk r.fa) .reserved <|
      need (sOk r.d && sOk r.b) .register <| match r.ft with
    | 0 => .ok (.vvote .ballot r.d r.fa r.b)
    | 1 => .ok (.vvote .any r.d r.fa r.b)
    | 2 => .ok (.vvote .all r.d r.fa r.b)
    | 3 => .ok (.vvote .count r.d r.fa r.b)
    | _ => .error .minor
  | 0x47 => r.red .vred
  | 0x48 => r.red .vscan
  | 0x49 => need (decide (r.fb < 32)) .reserved <|
      r.v2 {} Ty.isArith fun d a t => .vtopk d a (r.fb / 16 == 1) (r.fb % 16 + 1) t q
  | 0x4A => need (r.fa == 0 && r.fb == 0) .reserved <| r.acc { hd := true, pn := true } <|
      need r.t.isInt .typeCode <| .ok (.vrng r.d r.t q)
  | 0x4B => r.ts (r.t == .f16 || r.t == .bf16) (r.t == .s32 || r.t.isArith)
      fun d c n b x => .trd d c n b x r.t q rnd
  | 0x4C => r.ts false (r.t == .s32 || r.t.isArith) fun d c n b x => .twr d c n b x r.t q
  | 0x4D => r.ts false (r.ft == 0) fun d c n b x => .ttest d c n b x q
  | 0x4E => r.bare <| need (r.fd == 0 && decide (r.fa < 64) && r.fb == 0 && r.ft == 0) .reserved <|
      .ok (.tzero r.fa)
  | _ => .error .opcode

/-- The memory, graph and engine opcodes 0x60 to 0x79 (R269). -/
def decodeMemory (r : Raw) : Except DecodeErr Instr :=
  let q := r.x.q
  match r.op with
  | 0x60 => if r.ft < 8 then r.mg fun d a b z sc nt => .vld d a b z q sc nt
      else r.ml fun d a b z => .vldLp d a b z q
  | 0x61 => if r.ft < 8 then r.mg fun d a b z sc nt => .vst d a b z q sc nt
      else r.ml fun d a b z => .vstLp d a b z q
  | 0x62 => r.at_ 11 fun o d a b sc n s => .vatom32 o d a b q sc n s
  | 0x63 => r.at_ 10 fun o d a b sc n s => .vatom64 o d a b q sc n s
  | 0x64 => r.tl fun d a b e nt => .tld d a b e q nt
  | 0x65 => r.tl fun d a b e nt => .tst d a b e q nt
  | 0x66 => match r.x.aux with
    | 0 => r.sp (decide (r.ft < 6)) (.spld r.d r.a r.b r.z q)
    | 1 => r.sp (r.ft == 3) (.splds r.d r.a r.b q)
    | 2 => r.sp (r.ft == 3) (.spldSt r.d r.a r.b q)
    | _ => .error .minor
  | 0x67 => match r.x.aux with
    | 0 => r.sp (decide (r.ft < 6)) (.spst r.d r.a r.b r.z q)
    | 1 => r.sp (r.ft == 3) (.spstf r.d r.a r.b q)
    | 2 => need (r.d == 0) .reserved <| r.sp (r.ft == 3) (.spset false r.a r.b q)
    | 6 => need (r.d == 0) .reserved <| r.sp (r.ft == 3) (.spset true r.a r.b q)
    | _ => .error .minor
  | 0x68 => match r.ft with
    | 0 => r.s3 (.waita .eq) | 1 => r.s3 (.waita .ne) | 2 => r.s3 (.waita .gen)
    | 3 => r.s3 (.waita .ltn) | 4 => r.s3 (.waitaSp .eq) | 5 => r.s3 (.waitaSp .ne)
    | 6 => r.s3 (.waitaSp .gen) | 7 => r.s3 (.waitaSp .ltn) | _ => .error .minor
  | 0x69 => match r.ft with
    | 0 => r.ph .phase | 1 => r.ph .phaseRel | 2 => r.ph .phaseAcq | _ => .error .minor
  | 0x6A => match r.ft with
    | 0 => r.nul .drain | _ => .error .minor
  | 0x6B => match r.ft with
    | 0 => r.s3 .shinv | _ => .error .minor
  | 0x70 => r.acc { hd := true, ha := true, hb := true, bs := true, pn := true } <|
      need (decide (r.ft ≤ 6)) .operand <| need (r.ft != 0 || r.a == 0) .reserved <|
      need (sOk r.d && r.vb.wf) .register <| .ok (.emit r.d r.a r.vb r.ft q)
  | 0x71 => r.acc { hd := true, ha := true, hb := true } <|
      need (decide (r.ft ≤ 6)) .operand <| need (r.ft != 0 || r.a == 0) .reserved <|
      need (wfS r.d r.a r.b && decide (r.a + r.ft ≤ 192)) .register <|
      .ok (.emitS r.d r.a r.b r.ft)
  | 0x72 => need (r.fa == 0) .reserved <| match r.ft with
    | 0 => r.acc { hd := true, pn := true } <| need (decide (r.fb % 16 + (r.fb / 16 + 1) ≤ 8)) .operand <|
        .ok (.recldV r.d (r.fb % 16) (r.fb / 16 + 1) q)
    | 1 => r.acc { hd := true } <| need (decide (r.fb % 16 + (r.fb / 16 + 1) ≤ 8)) .operand <|
        need (decide (r.d + (r.fb / 16 + 1) ≤ 192)) .register <| .ok (.recldS r.d (r.fb % 16) (r.fb / 16 + 1))
    | _ => .error .minor
  | 0x73 => match r.ft with
    | 0 => r.br .bar | 1 => r.br .barArv | 2 => r.br .barWt | _ => .error .minor
  | 0x74 => match r.ft with
    | 0 => r.nul .waitpred | _ => .error .minor
  | 0x75 => match r.ft with
    | 0 => r.nul .hintsucc | _ => .error .minor
  | 0x76 => match r.ft with
    | 0 => r.sA .wdq | _ => .error .minor
  | 0x77 => match r.ft with
    | 0 => r.s3 .depsetArm | 1 => r.s2 .depsetDec | _ => .error .minor
  | 0x78 => match r.ft with
    | 0 => r.sA .mmq | _ => .error .minor
  | 0x79 => match r.ft with
    | 0 => r.sA .cpq | _ => .error .minor
  | _ => .error .opcode

/-- The instruction of a unit's words (R269). -/
def decodeRaw (r : Raw) : Except DecodeErr Instr :=
  if r.op < 0x20 then decodeScalar r
  else if r.op < 0x60 then decodeVector r
  else decodeMemory r

/-- What is known of a unit so far: refused or decoded with its length in words, or more words are
needed. -/
inductive Decoded where
  | ok (i : Instr) (n : Nat)
  | bad (e : DecodeErr) (n : Nat)
  | more
deriving DecidableEq, Repr

/-- A decoded word with the unit's length. -/
def Decoded.of (n : Nat) : Except DecodeErr Instr → Decoded
  | .ok i => .ok i n
  | .error e => .bad e n

/-- Collect prefixes until a word that is none (R250). `n` words have been read, `twice` says that a
prefix was repeated, which makes the unit ILLEGAL; it then ends at its first non-prefix word. -/
def decodeUnit (limm xp : Option Nat) (twice : Bool) (n : Nat) : List Nat → Decoded
  | [] => .more
  | w :: rest =>
    if w / 33554432 = 0x7E then decodeUnit (some w) xp (twice || limm.isSome) (n + 1) rest
    else if w / 33554432 = 0x7F then decodeUnit limm (some w) (twice || xp.isSome) (n + 1) rest
    else if w / 33554432 = 0x42 then
      match rest with
      | w2 :: w3 :: _ => if twice then .bad .prefixWord (n + 3)
          else .of (n + 3) (decodeRaw ⟨limm, xp, w, w2, w3⟩)
      | _ => .more
    else if twice then .bad .prefixWord (n + 1)
    else .of (n + 1) (decodeRaw ⟨limm, xp, w, 0, 0⟩)

/-- Decode the unit that starts at the first of these words. -/
def decode (ws : List Nat) : Decoded := decodeUnit none none false 0 ws

/-- Little-endian 32-bit words of a list of bytes (R3, R249). -/
def wordsOf : List Byte → List Nat
  | a :: b :: c :: d :: r =>
      (a.toNat + 256 * b.toNat + 65536 * c.toNat + 16777216 * d.toNat) :: wordsOf r
  | _ => []

/-- The four bytes of a word (R249). -/
def bytesOfWord (w : Nat) : List Byte :=
  [BitVec.ofNat 8 w, BitVec.ofNat 8 (w / 256), BitVec.ofNat 8 (w / 65536),
   BitVec.ofNat 8 (w / 16777216)]

/-- The words of a number that lays them out from bit 0: the first in [31:0], and two more, which are
what VEXPR needs. -/
def tableWords (nbits w : Nat) : List Nat :=
  let v := w % 2 ^ nbits
  [v % 4294967296, v / 4294967296 % 4294967296, v / 18446744073709551616 % 4294967296]

/-- The instruction the decoder reads from these bits, laid out in memory as the device stores them. -/
def decodeTableWord (nbits w : Nat) : Option Instr :=
  match decode (wordsOf ((tableWords nbits w).flatMap bytesOfWord)) with
  | .ok i _ => some i
  | _ => none

/-! ## The encoder -/

/-- A word of formats V, S, M, G, VI, SM and TS (R252): fields of 7 bits and T. -/
def mk (op d a b t : Nat) : Nat := op * 33554432 + d % 128 * 262144 + a % 128 * 2048 + b % 128 * 16 + t

/-- High bits of the register fields. -/
def hbits (d a b : Nat) : Xp := { Xp.zero with hd := d / 128, ha := a / 128, hb := b / 128 }

/-- Put a predication into XP fields. -/
def Xp.withQ (x : Xp) (q : Pred) : Xp := { x with pred := q.p, neg := q.neg.toNat }

/-- The XP word, if a field is non-zero (R264). -/
def xpWords (x : Xp) : List Nat := if x = .zero then [] else [x.toWord]

/-- `k` low bits of an integer in two's complement. -/
def lowBits (k : Nat) (i : Int) : Nat := (i % (2 ^ k : Nat)).toNat

/-- A unit of formats other than SI and E. -/
def unit (x : Xp) (w : Nat) : List Nat := xpWords x ++ [w]

/-- A unit of format SI: LIMM first when the immediate is outside imm11 (R264). -/
def unitI (x : Xp) (op d a : Nat) (i : Int) : List Nat :=
  (if -1024 ≤ i ∧ i < 1024 then [] else [4227858432 + lowBits 36 i / 2048]) ++
    xpWords x ++ [op * 33554432 + d % 128 * 262144 + a % 128 * 2048 + lowBits 36 i % 2048]

/-- Three scalar registers. -/
def encS3 (op t d a b : Nat) : List Nat := unit (hbits d a b) (mk op d a b t)
/-- The field of operand B of format V. -/
def VOp.field : VOp → Nat
  | .v n | .s n => n
/-- BS (R255). -/
def VOp.bs : VOp → Nat
  | .v _ => 0
  | .s _ => 1
/-- Format V with operand B. -/
def encV3 (op t d a : Nat) (b : VOp) (q : Pred) (sat : Bool) (rnd aux : Nat) : List Nat :=
  unit { (hbits d a b.field).withQ q with bs := b.bs, sat := sat.toNat, rnd := rnd, aux := aux }
    (mk op d a b.field t)
/-- Format V with a plain field B of seven bits. -/
def encV2 (op t d a fb : Nat) (q : Pred) (sat : Bool) (rnd : Nat) : List Nat :=
  unit { (hbits d a 0).withQ q with sat := sat.toNat, rnd := rnd } (mk op d a fb t)
/-- Format M. -/
def encM (op t d a b : Nat) (q : Pred) (scope : Nat) (nt : Bool) (aux : Nat) : List Nat :=
  unit { (hbits d a b).withQ q with scope := scope, nt := nt.toNat, aux := aux } (mk op d a b t)
/-- Format B (R252). -/
def encB (op cond reg : Nat) (off : Int) : List Nat :=
  [op * 33554432 + cond * 2097152 + reg * 16384 + lowBits 14 off]
/-- Format TS. -/
def encTs (op t d : Nat) (col : Bool) (tile b aux : Nat) (q : Pred) (rnd : Nat) : List Nat :=
  unit { (hbits d 0 b).withQ q with aux := aux, rnd := rnd } (mk op d (col.toNat * 64 + tile) b t)
/-- The code of an SSET condition. -/
def SCmp.code : SCmp → Nat
  | .eq => 0 | .ne => 1 | .lt => 2 | .ge => 3 | .ltn => 4 | .gen => 5
/-- COND of a scalar branch (R259). -/
def BCond.code : BCond → Nat
  | .z => 1 | .nz => 2 | .lt => 3 | .ge => 4 | .gt => 5 | .le => 6
/-- COND of a predicate branch (R259). -/
def PCond.code : PCond → Nat
  | .pany => 7 | .pnone => 8 | .pall => 9
/-- The function of VSF (R355). -/
def SfFn.code : SfFn → Nat
  | .rcp => 0 | .rsq => 1 | .exp2 => 2 | .log2 => 3 | .sin => 4 | .cos => 5 | .tanh => 6
  | .sqrt => 7
/-- T of VVOTE (R359). -/
def VoteOp.code : VoteOp → Nat
  | .ballot => 0 | .any => 1 | .all => 2 | .count => 3
/-- B of VRED and VSCAN (R352). -/
def RedOp.code : RedOp → Nat
  | .add => 0 | .min => 1 | .max => 2
/-- T of VATOM (R335). -/
def AtOp.code : AtOp → Nat
  | .add => 0 | .min => 1 | .max => 2 | .minu => 3 | .maxu => 4 | .and => 5 | .or => 6
  | .xor => 7 | .xchg => 8 | .cas => 9 | .fadd => 10
/-- T[1:0] of WAITA (R276). -/
def WCmp.code : WCmp → Nat
  | .eq => 0 | .ne => 1 | .gen => 2 | .ltn => 3

/-- Token `j` of a VEXPR list, END beyond it. -/
def tokAt (l : List Tok) (j : Nat) : Nat := (l.getD j .fin).code

/-- The words of a well-formed instruction (R252 to R264); a device event has none. -/
def encode : Instr → List Nat
  | .sadd d a b => encS3 0x01 0 d a b
  | .ssub d a b => encS3 0x01 1 d a b
  | .smul d a b => encS3 0x03 0 d a b
  | .smulh d a b => encS3 0x03 1 d a b
  | .smulhN d a b => encS3 0x03 2 d a b
  | .sand d a b => encS3 0x04 0 d a b
  | .sor d a b => encS3 0x04 1 d a b
  | .sxor d a b => encS3 0x04 2 d a b
  | .sandn d a b => encS3 0x04 3 d a b
  | .sshl d a b => encS3 0x08 0 d a b
  | .sshr d a b => encS3 0x08 1 d a b
  | .ssra d a b => encS3 0x08 2 d a b
  | .smin d a b => encS3 0x0A 0 d a b
  | .smax d a b => encS3 0x0A 1 d a b
  | .sminN d a b => encS3 0x0A 2 d a b
  | .smaxN d a b => encS3 0x0A 3 d a b
  | .sbfx d a b => encS3 0x0E 0 d a b
  | .sbfxN d a b => encS3 0x0E 1 d a b
  | .sbfi d a b => encS3 0x0E 2 d a b
  | .saddi d a i => unitI (hbits d a 0) 0x02 d a i
  | .sandi d a i => unitI (hbits d a 0) 0x05 d a i
  | .sori d a i => unitI (hbits d a 0) 0x06 d a i
  | .sxori d a i => unitI (hbits d a 0) 0x07 d a i
  | .sshlImm d a n => unit (hbits d a 0) (mk 0x08 d a n 8)
  | .sshrImm d a n => unit (hbits d a 0) (mk 0x08 d a n 9)
  | .ssraImm d a n => unit (hbits d a 0) (mk 0x08 d a n 10)
  | .sset c d a b => encS3 0x09 c.code d a b
  | .smov d a => encS3 0x0B 0 d a 0
  | .ssel d a b q => unit ((hbits d a b).withQ q) (mk 0x0C d a b 0)
  | .smovi d i => unitI (hbits d 0 0) 0x0D d 0 i
  | .smoviHi d i => unitI (hbits d 0 0) 0x0D d 1 i
  | .sclz d a => encS3 0x0F 0 d a 0
  | .spopc d a => encS3 0x0F 1 d a 0
  | .sld d a off z sc nt =>
      unit { hbits d a 0 with scope := sc, nt := nt.toNat } (mk 0x10 d a (lowBits 7 off) z.code)
  | .sst d a off z sc nt =>
      unit { hbits d a 0 with scope := sc, nt := nt.toNat } (mk 0x11 d a (lowBits 7 off) z.code)
  | .bra off => encB 0x12 0 0 off
  | .bcc c r off => encB 0x12 c.code r off
  | .bccPred c p off => encB 0x12 c.code p off
  | .call off => encB 0x13 0 0 off
  | .ret => [mk 0x14 0 0 0 0]
  | .jmpi a => encS3 0x14 1 0 a 0
  | .pand d a b => [mk 0x15 d a b 0]
  | .por d a b => [mk 0x15 d a b 1]
  | .pxor d a b => [mk 0x15 d a b 2]
  | .pnot d a => [mk 0x15 d a 0 3]
  | .pcnt d a => unit (hbits d 0 0) (mk 0x16 d a 0 0)
  | .pcntAny d a => unit (hbits d 0 0) (mk 0x16 d a 0 1)
  | .pcntAll d a => unit (hbits d 0 0) (mk 0x16 d a 0 2)
  | .xmset p => [mk 0x17 0 p 0 0]
  | .xmpush p => [mk 0x17 0 p 0 1]
  | .xmpop => [mk 0x17 0 0 0 2]
  | .xmelse => [mk 0x17 0 0 0 3]
  | .sysrd d i => unitI (hbits d 0 0) 0x18 d 0 i
  | .syswr a i => unitI (hbits 0 a 0) 0x19 0 a i
  | .wbase i => unitI .zero 0x1A 0 0 i
  | .regrel i => unitI .zero 0x1B 0 0 i
  | .regclm i => unitI .zero 0x1C 0 0 i
  | .rngsetSeed a => encS3 0x1D 0 0 a 0
  | .rngsetCtr a => encS3 0x1D 1 0 a 0
  | .rnggetCtr d => encS3 0x1D 2 d 0 0
  | .rnggetSeed d => encS3 0x1D 3 d 0 0
  | .trap a => encS3 0x1E 0 0 a 0
  | .tret => [mk 0x1E 0 0 0 1]
  | .brk => [mk 0x1E 0 0 0 2]
  | .nop => [mk 0x1F 0 0 0 0]
  | .yield => [mk 0x1F 0 0 0 1]
  | .exit => [mk 0x1F 0 0 0 2]
  | .vadd d a b t q s => encV3 0x20 t.code d a b q s 0 0
  | .vsub d a b t q s => encV3 0x21 t.code d a b q s 0 0
  | .vmul d a b t q s => encV3 0x23 t.code d a b q s 0 0
  | .vmad d a b t q s => encV3 0x25 t.code d a b q s 0 0
  | .vaddi d a i t q s => encV2 0x22 t.code d a (lowBits 7 i) q s 0
  | .vmulh d a b t q => encV3 0x24 t.code d a b q false 0 0
  | .vdiv d a b t q => encV3 0x26 t.code d a b q false 0 0
  | .vrem d a b t q => encV3 0x27 t.code d a b q false 0 0
  | .vshl d a b t q => encV3 0x29 t.code d a b q false 0 0
  | .vshr d a b t q => encV3 0x2A t.code d a b q false 0 0
  | .vsra d a b t q => encV3 0x2B t.code d a b q false 0 0
  | .vmin d a b t q => encV3 0x2C t.code d a b q false 0 0
  | .vmax d a b t q => encV3 0x2D t.code d a b q false 0 0
  | .vfmin d a b t q => encV3 0x3E t.code d a b q false 0 0
  | .vfmax d a b t q => encV3 0x3F t.code d a b q false 0 0
  | .vshfl d a b t q => encV3 0x45 t.code d a b q false 0 0
  | .vand d a b q => encV3 0x28 0 d a b q false 0 0
  | .vor d a b q => encV3 0x28 1 d a b q false 0 0
  | .vxor d a b q => encV3 0x28 2 d a b q false 0 0
  | .vnot d a q => encV2 0x28 3 d a 0 q false 0
  | .vcmpEq d a b t e q => encV3 0x2E t.code d a b q false 0 e
  | .vcmpNe d a b t e q => encV3 0x2F t.code d a b q false 0 e
  | .vcmpLt d a b t e q => encV3 0x30 t.code d a b q false 0 e
  | .vcmpLe d a b t e q => encV3 0x31 t.code d a b q false 0 e
  | .vcmpUn d a b t e q => encV3 0x32 t.code d a b q false 0 e
  | .vsel d a b p q => encV3 0x33 p d a b q false 0 0
  | .vdp4 d a b s sb sa q => encV3 0x34 (s.toNat * 4 + sb.toNat * 2 + sa.toNat) d a (.v b) q false 0 0
  | .vdp8 d a b s sb sa q => encV3 0x35 (s.toNat * 4 + sb.toNat * 2 + sa.toNat) d a (.v b) q false 0 0
  | .vclz d a t q => encV2 0x36 t.code d a 0 q false 0
  | .vpopc d a t q => encV2 0x36 t.code d a 1 q false 0
  | .vmov d a q => encV2 0x37 0 d a 0 q false 0
  | .vmovBcast d a q => encV2 0x37 1 d a 0 q false 0
  | .vmovLane d q => encV2 0x37 2 d 0 0 q false 0
  | .vmovi d i t q => encV2 0x38 t.code d 0 (lowBits 7 i) q false 0
  | .vfadd d a b t q r => encV3 0x39 t.code d a b q false r 0
  | .vfsub d a b t q r => encV3 0x3A t.code d a b q false r 0
  | .vfmul d a b t q r => encV3 0x3B t.code d a b q false r 0
  | .vfma d a b t q r => encV3 0x3C t.code d a b q false r 0
  | .vfms d a b t q r => encV3 0x3D t.code d a b q false r 0
  | .vcvt d a dst src q r s => encV2 0x40 dst.code d a src.code q s r
  | .vsf d a f q => encV2 0x41 f.code d a 0 q false 0
  | .vexpr d i0 i1 i2 i3 t l s r =>
      [mk 0x42 d i0 i1 t.code,
       i2 * 33554432 + i3 * 262144 + tokAt l 0 * 16384 + tokAt l 1 * 1024 + tokAt l 2 * 64
         + tokAt l 3 * 4 + s.toNat * 2 + r.toNat,
       tokAt l 4 * 268435456 + tokAt l 5 * 16777216 + tokAt l 6 * 1048576 + tokAt l 7 * 65536
         + tokAt l 8 * 4096 + tokAt l 9 * 256 + tokAt l 10 * 16 + tokAt l 11]
  | .vhad d a h t q r => encV2 0x43 t.code d a h.toNat q false r
  | .vqnt d a dst src h q r => encV2 0x44 dst.code d a (h * 16 + src.code) q false r
  | .vvote o d p b => unit (hbits d 0 b) (mk 0x46 d p b o.code)
  | .vred o d a t q r s => encV2 0x47 t.code d a o.code q s r
  | .vscan o d a t q r s => encV2 0x48 t.code d a o.code q s r
  | .vtopk d a g k t q => encV2 0x49 t.code d a (g.toNat * 16 + (k - 1)) q false 0
  | .vrng d t q => encV2 0x4A t.code d 0 0 q false 0
  | .trd d c n b x t q r => encTs 0x4B t.code d c n b x q r
  | .twr d c n b x t q => encTs 0x4C t.code d c n b x q 0
  | .ttest d c n b x q => encTs 0x4D 0 d c n b x q 0
  | .tzero n => [mk 0x4E 0 n 0 0]
  | .vld d a b z q sc nt => encM 0x60 z.code d a b q sc nt 0
  | .vldLp d a b z q => encM 0x60 (8 + z.code) d a b q 0 false 0
  | .vst d a b z q sc nt => encM 0x61 z.code d a b q sc nt 0
  | .vstLp d a b z q => encM 0x61 (8 + z.code) d a b q 0 false 0
  | .vatom32 o d a b q sc n s => encM 0x62 o.code d a b q sc false (s.toNat * 2 + n.toNat)
  | .vatom64 o d a b q sc n s => encM 0x63 o.code d a b q sc false (s.toNat * 2 + n.toNat)
  | .tld d a b e q nt => encM 0x64 e d a b q 0 nt 0
  | .tst d a b e q nt => encM 0x65 e d a b q 0 nt 0
  | .spld d a b z q => encM 0x66 z.code d a b q 0 false 0
  | .splds d a b q => encM 0x66 3 d a b q 0 false 1
  | .spldSt d a b q => encM 0x66 3 d a b q 0 false 2
  | .spst d a b z q => encM 0x67 z.code d a b q 0 false 0
  | .spstf d a b q => encM 0x67 3 d a b q 0 false 1
  | .spset f a b q => encM 0x67 3 0 a b q 0 false (2 + 4 * f.toNat)
  | .waita c d a b => encS3 0x68 c.code d a b
  | .waitaSp c d a b => encS3 0x68 (4 + c.code) d a b
  | .phase sc => unit { Xp.zero with scope := sc } (mk 0x69 0 0 0 0)
  | .phaseRel sc => unit { Xp.zero with scope := sc } (mk 0x69 0 0 0 1)
  | .phaseAcq sc => unit { Xp.zero with scope := sc } (mk 0x69 0 0 0 2)
  | .drain => [mk 0x6A 0 0 0 0]
  | .shinv d a b => encS3 0x6B 0 d a b
  | .emit d a b n q => encV3 0x70 n d a b q false 0 0
  | .emitS d a b n => encS3 0x71 n d a b
  | .recldV d w c q => encV2 0x72 0 d 0 ((c - 1) * 16 + w) q false 0
  | .recldS d w c => unit (hbits d 0 0) (mk 0x72 d 0 ((c - 1) * 16 + w) 1)
  | .bar a b => unit (hbits 0 a 0) (mk 0x73 0 a b 0)
  | .barArv a b => unit (hbits 0 a 0) (mk 0x73 0 a b 1)
  | .barWt a b => unit (hbits 0 a 0) (mk 0x73 0 a b 2)
  | .waitpred => [mk 0x74 0 0 0 0]
  | .hintsucc => [mk 0x75 0 0 0 0]
  | .wdq a => encS3 0x76 0 0 a 0
  | .depsetArm d a b => encS3 0x77 0 d a b
  | .depsetDec d a => encS3 0x77 1 d a 0
  | .mmq a => encS3 0x78 0 0 a 0
  | .cpq a => encS3 0x79 0 0 a 0
  | .freezePointReached _ _ | .compactorMoveDone _ _ | .placementRound _ | .nodeAges _ _
  | .reservationTake _ _ _ | .lingerExpiry _ _ _ | .evictionClaim _ | .evictionSaveComplete _
  | .runlimitExpiry _ | .graphdeadlock _ | .instanceComplete _ | .emitWake _ _
  | .counterPendingEnqueue _ _ | .loamSpill _ _ | .loamRefill _ _ _
  | .remoteRecordArrival _ _ _ _ _ _ | .remoteRecordRefused _ | .dropNotice _
  | .reservationRequest _ _ _ _ _ | .reservationGrant _ _ _ _ _ | .reservationExpiry _
  | .remoteRecordAck _ | .wdqAnswer _ | .taskMma _ _ | .taskMmaSc _ _ | .taskMmaInt _ _
  | .taskRingdef _ _ | .taskTclear _ _ | .matrixStep _ _ | .jobCopy _ _ _ | .jobCopy2d _ _ _
  | .jobGatherbt _ _ _ | .jobWiden _ _ _ | .jobFillwb _ _ _ | .itemRetire _ _ | .itemFailure _ _
  | .cowCopyDone _ _ _ | .translationOutcome _ _ _ _ | .pageAnswer _ _ _ _ _ | .shootdown _ _ _
  | .contextKill _ | .loadReturn _ _ | .storePerformed _ _ | .remoteRequest _ _ _ _ _ _
  | .remoteResponse _ _ _ | .remoteTimeout _ | .waitaWatchAnswer _ _ | .waitaWatchRenew _
  | .shinvRelay _ _ _ _ | .shinvAck _ _ | .shinvFence _ _ _ | .atsTranslationResponse _ _ _ _
  | .atsInvalidation _ _ | .priResponse _ _ _ | .laneFailure _ _ | .deviceAdmit _
  | .mailboxSend _ _ _ | .uncorrectableError _ | .correctedError | .thermalLimit _ | .reset
  | .firmwareVerifyDone _ _ _ | .fwlockWrite _ | .loadWindowWrite _ _ | .registerWrite _ _
  | .getVersion | .getCapabilities | .negotiateAlgorithms | .getDigests | .getCertificate
  | .challenge _ | .getMeasurements _ | .walkerVisit _ | .packetNop _ | .graphLaunch _
  | .writeValue _ | .writeValueDone _ | .waitValue _ | .indirect _ | .checkpointStart _
  | .checkpointQuiesced | .checkpointTimeout | .checkpointRestore _ | .waitaWatch _ _ _ _ _
  | .wakeConditionRecheck _ _ => []

end Sys2Proof
end

