-- ==== Sys2Proof/Machine/Issue.lean ====
section
/-! DEFINITION. From a crew's turn to an instruction to execute: the registers and tiles a unit names and
the scoreboard (R93, R94), the fetch of its words (R249, R250), the gates of R213, R214, R222 and R36; and
what outside agents do to the device. -/

namespace Sys2Proof.Machine

/-! ## Registers and tiles of a unit (R94) -/

/-- Scalar registers, vector fields and tiles that a unit reads or writes. -/
structure Uses where
  s : List Nat := []
  v : List Nat := []
  tile : List Nat := []
deriving DecidableEq, Repr

/-- `n` numbers from `f`. -/
def run (f n : Nat) : List Nat := (List.range n).map (fun i => f + i)

/-- Only scalar registers. -/
def Uses.sc (l : List Nat) : Uses := { s := l }

/-- Only vector registers. -/
def Uses.vec (l : List Nat) : Uses := { v := l }

/-- D, A and operand B of format V. -/
def Uses.v3 (d a : Nat) : VOp → Uses
  | .v n => { v := [d, a, n] }
  | .s n => { s := [n], v := [d, a] }

/-- A and operand B, with a predicate destination. -/
def Uses.cmp (a : Nat) : VOp → Uses
  | .v n => { v := [a, n] }
  | .s n => { s := [n], v := [a] }

/-- Format M: data registers from D, the address registers A (vector) and B (scalar). -/
def Uses.mem (d n a m b : Nat) : Uses := { s := [b], v := run d n ++ run a m }

/-- Registers of a value of a type with a companion register (R152). -/
def Ty.regs (t : Ty) : Nat := if t = .e2m1s then 2 else 1

/-- What each instruction names (R94); an event names nothing. -/
def uses : Instr → Uses
  | .sadd d a b | .ssub d a b | .smul d a b | .smulh d a b | .smulhN d a b | .sand d a b
  | .sor d a b | .sxor d a b | .sandn d a b | .sshl d a b | .sshr d a b | .ssra d a b
  | .smin d a b | .smax d a b | .sminN d a b | .smaxN d a b | .sbfx d a b | .sbfxN d a b
  | .sbfi d a b | .sset _ d a b | .ssel d a b _ | .waita _ d a b | .waitaSp _ d a b
  | .shinv d a b => .sc [d, a, b]
  | .saddi d a _ | .sandi d a _ | .sori d a _ | .sxori d a _ | .sshlImm d a _ | .sshrImm d a _
  | .ssraImm d a _ | .smov d a | .sclz d a | .spopc d a | .depsetDec d a => .sc [d, a]
  | .depsetArm d a b => .sc ([d, a] ++ run b 6)
  | .smovi d _ | .smoviHi d _ | .sysrd d _ | .rnggetCtr d | .rnggetSeed d => .sc [d]
  | .pcnt d _ | .pcntAny d _ | .pcntAll d _ => .sc [d]
  | .syswr a _ | .jmpi a | .rngsetSeed a | .rngsetCtr a | .trap a | .wdq a | .mmq a | .cpq a => .sc [a]
  | .bar a _ | .barArv a _ | .barWt a _ => .sc [a]
  | .sld d a _ z _ _ | .sst d a _ z _ _ => .sc (run d z.regs ++ [a])
  | .bcc _ r _ => .sc [r]
  | .call _ | .ret => .sc [191]
  | .bra _ | .bccPred _ _ _ | .pand _ _ _ | .por _ _ _ | .pxor _ _ _ | .pnot _ _ | .xmset _ | .xmpush _
  | .xmpop | .xmelse | .wbase _ | .regrel _ | .regclm _ | .tret | .brk | .nop | .yield | .exit
  | .phase _ | .phaseRel _ | .phaseAcq _ | .drain | .waitpred | .hintsucc => {}
  | .vadd d a b _ _ _ | .vsub d a b _ _ _ | .vmul d a b _ _ _ | .vmad d a b _ _ _ => .v3 d a b
  | .vmulh d a b _ _ | .vdiv d a b _ _ | .vrem d a b _ _ | .vshl d a b _ _ | .vshr d a b _ _
  | .vsra d a b _ _ | .vmin d a b _ _ | .vmax d a b _ _ | .vfmin d a b _ _ | .vfmax d a b _ _
  | .vshfl d a b _ _ => .v3 d a b
  | .vand d a b _ | .vor d a b _ | .vxor d a b _ | .vsel d a b _ _ => .v3 d a b
  | .vfadd d a b _ _ _ | .vfsub d a b _ _ _ | .vfmul d a b _ _ _ | .vfma d a b _ _ _
  | .vfms d a b _ _ _ => .v3 d a b
  | .vcmpEq _ a b _ _ _ | .vcmpNe _ a b _ _ _ | .vcmpLt _ a b _ _ _ | .vcmpLe _ a b _ _ _
  | .vcmpUn _ a b _ _ _ => .cmp a b
  | .vdp4 d a b _ _ _ _ | .vdp8 d a b _ _ _ _ => .vec [d, a, b]
  | .vaddi d a _ _ _ _ | .vnot d a _ | .vclz d a _ _ | .vpopc d a _ _ | .vmov d a _ | .vsf d a _ _
  | .vhad d a _ _ _ _ | .vred _ d a _ _ _ _ | .vscan _ d a _ _ _ _ | .vtopk d a _ _ _ _ => .vec [d, a]
  | .vmovBcast d a _ => { s := [a], v := [d] }
  | .vmovLane d _ | .vmovi d _ _ _ | .vrng d _ _ => .vec [d]
  | .vcvt d a dst src _ _ _ => .vec (run d (Ty.regs dst) ++ run a (Ty.regs src))
  | .vqnt d a dst src _ _ _ => .vec (run d 2 ++ run a ((if dst = .e2m1s then 16 else 8) / src.count))
  | .vexpr d i0 i1 i2 i3 _ toks _ _ =>
      .vec (d :: toks.filterMap (fun t => match t with
        | .i0 => some i0 | .i1 => some i1 | .i2 => some i2 | .i3 => some i3 | _ => none))
  | .vvote _ d _ b => .sc [d, b]
  | .trd d _ tile b _ _ _ _ | .twr d _ tile b _ _ _ | .ttest d _ tile b _ _ =>
      { s := [b], v := [d], tile := [tile] }
  | .tzero tile => { tile := [tile] }
  | .vld d a b z _ _ _ | .vst d a b z _ _ _ | .vldLp d a b z _ | .vstLp d a b z _ | .spld d a b z _
  | .spst d a b z _ => .mem d z.regs a 1 b
  | .vatom32 op d a b _ _ _ _ | .vatom64 op d a b _ _ _ _ => .mem d (if op = .cas then 2 else 1) a 1 b
  | .tld d a b _ _ _ | .tst d a b _ _ _ => .mem d 1 a 2 b
  | .splds d a b _ | .spldSt d a b _ | .spstf d a b _ => .mem d 1 a 1 b
  | .spset _ a b _ => .mem 0 0 a 1 b
  | .emit d a b n _ => (match b with
      | .v m => { s := [d], v := m :: run a n }
      | .s m => { s := [d, m], v := run a n })
  | .emitS d a b n => .sc ([d, b] ++ run a n)
  | .recldV d _ c _ => .vec (run d c)
  | .recldS d _ c => .sc (run d c)
  | .freezePointReached _ _ | .compactorMoveDone _ _ | .placementRound _ | .nodeAges _ _
  | .reservationTake _ _ _ | .lingerExpiry _ _ _ | .evictionClaim _ | .evictionSaveComplete _
  | .runlimitExpiry _ | .graphdeadlock _ | .instanceComplete _ | .emitWake _ _
  | .counterPendingEnqueue _ _ | .loamSpill _ _ | .loamRefill _ _ _
  | .remoteRecordArrival _ _ _ _ _ _ | .remoteRecordRefused _ | .dropNotice _
  | .reservationRequest _ _ _ _ _ | .reservationGrant _ _ _ _ _ | .reservationExpiry _
  | .remoteRecordAck _ | .wdqAnswer _ | .taskMma _ _ | .taskMmaSc _ _ | .taskMmaInt _ _
  | .taskRingdef _ _ | .taskTclear _ _ | .matrixStep _ _ | .jobCopy _ _ _ | .jobCopy2d _ _ _
  | .jobGatherbt _ _ _ | .jobWiden _ _ _ | .jobFillwb _ _ _ | .itemRetire _ _ | .itemFailure _ _
  | .cowCopyDone _ _ _ | .translationOutcome _ _ _ _ | .pageAnswer _ _ _ _ _ | .shootdown _ _ _
  | .contextKill _ | .loadReturn _ _ | .storePerformed _ _ | .remoteRequest _ _ _ _ _ _
  | .remoteResponse _ _ _ | .remoteTimeout _ | .waitaWatchAnswer _ _ | .waitaWatchRenew _
  | .shinvRelay _ _ _ _ | .shinvAck _ _ | .shinvFence _ _ _ | .atsTranslationResponse _ _ _ _
  | .atsInvalidation _ _ | .priResponse _ _ _ | .laneFailure _ _ | .deviceAdmit _
  | .mailboxSend _ _ _ | .uncorrectableError _ | .correctedError | .thermalLimit _ | .reset
  | .firmwareVerifyDone _ _ _ | .fwlockWrite _ | .loadWindowWrite _ _ | .registerWrite _ _
  | .getVersion | .getCapabilities | .negotiateAlgorithms | .getDigests | .getCertificate
  | .challenge _ | .getMeasurements _ | .walkerVisit _ | .packetNop _ | .graphLaunch _
  | .writeValue _ | .writeValueDone _ | .waitValue _ | .indirect _ | .checkpointStart _
  | .checkpointQuiesced | .checkpointTimeout | .checkpointRestore _ | .waitaWatch _ _ _ _ _
  | .wakeConditionRecheck _ _ => {}

/-- What the crew's unit names: of the six payload registers of a DEPSET.ARM only the k that s[D] asks for, none
where k = 7 makes it ILLEGAL (R94, R302). -/
def Crew.uses (c : Crew) (i : Instr) : Uses := match i with
  | .depsetArm d a b =>
    let k := bitsOf (c.sr d).toNat 38 36
    .sc ([d, a] ++ run b (if 6 < k then 0 else k))
  | i => Machine.uses i

/-- Destinations on their way to a crew, but for those of the unit itself, which has begun and stands: each with
whether it comes from another device. -/
def State.pending (s : State) (c : Crew) : List (Dst × Bool) :=
  let far (va : Word) : Bool := vaDev va != s.devid
  let other (uid idx id : Nat) : Bool := uid == c.uid && idx == c.idx && !c.w.own.contains id
  ((s.mem.loads.filter (fun l => other l.uid l.idx l.id)).flatMap
      (fun l => l.parts.map (fun p => (p.dst, far p.va))))
    ++ (s.mem.stores.filter (fun e => other e.uid e.idx e.id)).map (fun e => (e.dst, far e.va))

/-- A destination is a register that the unit names. -/
def Uses.hit (u : Uses) (c : Crew) : Dst → Bool
  | .none => false
  | .s n => n != 0 && u.s.contains n
  | .v k => u.v.any (fun f => c.vix f == k / 32)

/-- An engine item of the cohort in flight writes a tile that the unit names (R94). -/
def State.tileBusy (s : State) (c : Crew) (h : Cohort) (u : Uses) : Bool :=
  (s.itemsOf h.uid).any (fun i => i.core == h.coreOf c.idx && i.fp.any (fun r =>
    r.write && r.kind == 3 && u.tile.any (fun t => bitOf r.start t)))

/-- The scoreboard's answer (R94): none clear, else whether a load of another device holds the unit. -/
def State.scoreboard (s : State) (c : Crew) (h : Cohort) (i : Instr) : Option Bool :=
  let u := c.uses i
  let hits := (s.pending c).filter (fun d => u.hit c d.1)
  if !hits.isEmpty then some (hits.any (·.2))
  else if s.tileBusy c h u then some false
  else none

/-! ## The fetch (R249, R250) -/

/-- What the fetch of one word meets. -/
inductive Fetch where
  | word (w : Nat)
  | fault (cause xdev : Nat)
  | page (kind : Nat)
  | need
  | remote (dev : Nat)
  | host (key : Nat)
  | fenced (dev : Nat)
deriving DecidableEq, Repr

/-- Fetch one word: one already held for the unit, or by a load of its four bytes (R249). -/
def State.fetchWord (s : State) (c : Crew) (h : Cohort) (va : Word) : Fetch :=
  match SMap.get 0 c.x.ibuf va.toNat with
  | w + 1 => .word w
  | 0 => match s.lane c (h.coreOf c.idx) h.ctx va .load with
    | .home k => if k / 2 ^ 56 = 2 then .host k else if s.poisoned k 4 then .fault 15 0 else .word (s.readKey k 4).toNat
    | .fault f => .fault f 0
    | .req k => .page k
    | .need => .need
    | .fenced d => .fenced d
    | .remote d => match c.x.xout.find? (fun e => e.1 == vaPage va && e.2.1 == .load) with
      | some (_, _, .fault f) => .fault f (if f = 6 then d else 0)
      | _ => .remote d

/-- The words of a unit as far as they can be fetched, from those that came before: a decoded unit, or where
the fetch stands. -/
inductive FetchRun where
  | unit (i : Instr) (n : Nat)
  | bad (n : Nat)
  | stop (va : Word) (f : Fetch)
  | more
deriving DecidableEq, Repr

/-- Fetch word after word until the unit is decoded, at most `k` more. The crew is given back with the words
it holds; a word of a fenced device reads as all ones and marks XSR (R123). -/
def State.fetchRun (s : State) (h : Cohort) (va : Word) : Nat → List Nat → Crew → FetchRun × Crew
  | 0, _, c => (.more, c)
  | k + 1, ws, c =>
    let keep (w : Nat) (c : Crew) : Crew := { c with x := { c.x with ibuf := SMap.set 0 c.x.ibuf va.toNat (w + 1) } }
    let on (w : Nat) (c : Crew) : FetchRun × Crew :=
      let c := keep w c
      match decode (ws ++ [w]) with
      | .ok i n => (.unit i n, c)
      | .bad _ n => (.bad n, c)
      | .more => State.fetchRun s h (va + 4) k (ws ++ [w]) c
    match s.fetchWord c h va with
    | .word w => on w c
    | .fenced d => on (2 ^ 32 - 1) (c.setXsr s.clk.cycle 0 d)
    | f => (.stop va f, c)

/-- The fetch of the crew's next unit. Each turn looks at 1,024 words beyond those it holds, so that a run
of prefixes of any length is passed in time. -/
def State.fetchUnit (s : State) (c : Crew) (h : Cohort) : FetchRun × Crew :=
  s.fetchRun h c.r.pc (c.x.ibuf.length + 1024) [] c

/-- What a crew does when its fetch cannot go on: it takes the fault at the word, which TRET fetches again
(R217), or waits for a page, an outcome or the other device. -/
def State.fetchStop (s : State) (c : Crew) (h : Cohort) (va : Word) (f : Fetch) : State :=
  match f with
  | .word _ | .fenced _ => s.putCrew c
  | .fault cause xdev =>
    s.takeTrap (c.unwait.setPc va) h { cause := cause, pc := va, addr := va, resume := va, xdev := xdev }
  | .page k => (s.joinMerge h.ctx (vaPage va) k c.r.pc).waitOn
      { c with w := { c.w with pages := [vaPage va] } } (.page (vaPage va))
  | .need => s.putCrew { c with
      w := { c.w with kind := .none }, x := { c.x with xwait := [(vaPage va, .load)] } }
  | .remote d =>
    if s.mem.remote.any (fun r => r.who == .fetch c.uid c.idx) then s.waitOn c .remote
    else (s.newRemote (dieOf (h.coreOf c.idx)) d h.ctx (.fetch c.uid c.idx) va 4 (.load 4)).1.waitOn c .remote
  | .host k =>
    if s.mem.remote.any (fun r => r.who == .fetch c.uid c.idx) then s.waitOn c .remote
    else (s.newHost h.ctx k (.fetch c.uid c.idx) va 4 (.load 4)).1.waitOn c .remote

/-! ## A crew's turn -/

/-- The crew waits at a blocking point within a unit that has issued, not at its fetch or at the scoreboard. -/
def Crew.inUnit (c : Crew) : Bool := match c.w.kind with
  | .none => false
  | .page _ | .remote => c.w.begun
  | _ => true

/-- The crew may take its turn (R93): its cohort holds its core, it has not exited, unless for a trap that waits behind
a halt now over (R213, R227), is not frozen, unless by FRZ at a wait, which continues (R214), is not past the skid of
R214 or at a trap behind the halt (R213), and the compactor does not move it (R36). -/
def Crew.mayIssue (c : Crew) (h : Cohort) : Bool :=
  let waits := c.inUnit && c.pend.isEmpty && !(h.halt.any (·.abort))
  h.ev == .placed && (!c.gone || (!c.pend.isEmpty && h.halt.isNone)) && (!c.g.frozen || waits) && !c.g.moving
    && !(c.g.stopping && (decide (8 ≤ c.g.skid) || !c.pend.isEmpty))

/-- A crew that waits for room for its record goes on at the wake of R57, not by its own turn. -/
def Crew.emitting (c : Crew) : Bool := match c.w.kind with
  | .emit _ _ => true
  | .emitRemote => true
  | _ => false

/-- The unit's instruction is to be executed in a state, or the turn ends there. -/
inductive Turn where
  | run (i : Instr) (s : State)
  | rest (s : State)
deriving DecidableEq, Repr

/-- A crew's turn up to execution: pending traps first (R201, R213), then fetch, decode and scoreboard. A crew
that does more than test its wait again breaks the 10 µs of R75. -/
def State.turn (s : State) (u idx : Nat) : Turn :=
  match s.crew? u idx, s.cohort? u with
  | some c, some h =>
    if !c.mayIssue h then .rest s
    else match c.pend with
      | t :: rest => .rest (s.takeTrap { c with pend := rest } h
          (if t.late then { t with resume := c.r.pc } else t))
      | [] =>
        if c.emitting then .rest s
        else match s.fetchUnit c h with
          | (.more, c1) => .rest (s.putCrew c1)
          | (.stop va f, c1) => .rest (s.fetchStop c1 h va f)
          | (.bad n, c1) => .rest (s.illegal { c1 with r := { c1.r with ulen := 4 * n } } h)
          | (.unit i n, c1) =>
            let c2 := { c1 with r := { c1.r with ulen := 4 * n } }
            match s.scoreboard c2 h i with
            | some far => .rest (s.putCrew { c2 with w := { c2.w with kind := if far then .remote else .none } })
            | none =>
              let c3 := { c2 with w := { c2.w with kind := if c2.w.kind = .remote then .none else c2.w.kind } }
              .run i (({ s.putCrew c3 with cur := (u, idx) }).modInst h.inst
                (fun a => if s.inWait h c then a else { a with stuck := none }))
  | _, _ => .rest s

/-! ## Time and outside agents -/

/-- Cycles and nanoseconds pass; run counters of the cohorts that hold their cores advance (R4, R90). -/
def State.pass (s : State) (cycles ns : Nat) : State :=
  { s with
    clk := { s.clk with cycle := s.clk.cycle + cycles, ns := s.clk.ns + ns }
    cohorts := s.cohorts.map (fun (h : Cohort) => match h.ev with
      | .placed | .saving => { h with run := h.run + cycles }
      | _ => h) }

/-- One cycle of the 1.9 GHz clock with the nanosecond that may end in it (R4). -/
def State.cycle (s : State) : State := s.pass 1 ((s.clk.cycle + 1) * 10 / 19 - s.clk.cycle * 10 / 19)

/-- The host, another device or a firmware core writes bytes at a home of a die or of the host (R127,
R228, R230). -/
def State.agentWrite (s : State) (key : Nat) (data : List Byte) : State :=
  if key + data.length ≤ 3 * 2 ^ 56 then (s.perform key data).noteLists else s

/-- The memory-management core sets a context (R126, R128, R139, R142). -/
def State.setCtx (s : State) (c : Ctx) : State :=
  { s with mmu := { s.mmu with ctxs := c :: s.mmu.ctxs.filter (fun (x : Ctx) => x.n != c.n) } }

/-- Firmware keeps a run-list head (R229, R230). -/
def State.setHead (s : State) (p : Nat) (qsb : Word) : State :=
  ({ s with host := { s.host with heads := s.host.heads.set p qsb } }).noteLists

/-- The fabric core writes a route mask of 12 ports (R198). Records that no route has carried so far go out by it
(R204). -/
def State.setRoute (s : State) (die dev mask : Nat) : State :=
  if die < 2 ∧ dev < 1024 then
    let s := { s with fab := { s.fab with routes := SMap.set 0 s.fab.routes (1024 * die + dev) (mask % 4096) } }
    (s.fab.outbound.filter (fun (o : OutRec) => !o.held && o.dev == dev && o.port.isNone)).foldl State.sendOut s
  else s

/-- The fabric core sets the timeout, 1 to 1,000 µs (R200). -/
def State.setTimeout (s : State) (us : Nat) : State :=
  if 1 ≤ us ∧ us ≤ 1000 then { s with host := { s.host with fw := { s.host.fw with timeout := us } } } else s

/-- Firmware sets the reservation time, 1 to 1,000 µs (R72). -/
def State.setResTime (s : State) (us : Nat) : State :=
  if 1 ≤ us ∧ us ≤ 1000 then { s with host := { s.host with fw := { s.host.fw with resTime := us } } } else s

end Sys2Proof.Machine
end

