-- ==== Sys2Proof/Machine/Step.lean ====
section
/-! DEFINITION. One step of the device: the first entry of the agenda, or a cycle that passes; and the
state in which the next step fetches and runs a given word. -/

namespace Sys2Proof.Machine

/-- An action of the agenda. An entry that is no event of the opcode table changes nothing: instruction
words are executed only by a crew's turn. -/
def act (s : State) : Action → Host.Outcome State Fault Refusal
  | .issue u c => match s.turn u c with
    | .run i s => exec i s
    | .rest s => .next s
  | .ev i => if i.isEvent then exec i s else .next s
  | .tick cycles ns => .next (s.pass cycles ns)
  | .write key data => .next (s.agentWrite key data)
  | .ctx c => .next (s.setCtx c)
  | .head p qsb => .next (s.setHead p qsb)
  | .route die dev mask => .next (s.setRoute die dev mask)
  | .timeout us => .next (s.setTimeout us)
  | .resTime us => .next (s.setResTime us)
  | .fence dev => .next (s.setFence dev)
  | .receive i j => .next (s.receive i j)
  | .failed kind n => .next (s.recordFailure kind n)

/-- One step. -/
def step (s : State) : Host.Outcome State Fault Refusal :=
  match s.agenda with
  | [] => .next s.cycle
  | a :: rest => act { s with agenda := rest } a

/-- The address at which `withFetchWord` puts an instruction: 4 KiB into the space of die 0. -/
def fetchAt : Word := 0x1000

/-- Context 0 with its tables at 64 KiB of die 0. -/
def fetchCtx : Ctx := { n := 0, root0 := 0x10000 }

/-- The tables of `fetchCtx` (R126, R127): a table entry of level 1, and a 1 GiB leaf of level 2 that maps the
first GiB of die 0 on frame 0 for loads. -/
def fetchTables : List (Nat × Word) := [(0x10000, 0x20063), (0x20000, 0x43)]

/-- The instruction whose bits are `w`, the higher ones zero, stands at the PC of crew 0 of a cohort on
core 0, and that crew issues next. It is the state that a launch of a one-crew node leaves (R31, R44, R278)
with its filter filled for the page (R129). -/
def State.withFetchWord (s : State) (nbits w : Nat) : State :=
  let bytes := (tableWords nbits w).flatMap bytesOfWord
  let mem := fetchTables.foldl (fun m e => putBytes m e.1 (leBytes 8 e.2.toNat)) s.mem.mem
  let node : Node := { entry := fetchAt, ireg := [64, 0, 0, 0, 0, 0, 0, 0], budget := 64, tiles := 64, scratch := 64 }
  { s with
    insts := [{ slot := 0, nodes := [node] }]
    cohorts := [{ uid := 0, inst := 0, serial := 1, ctx := 0, node := 0, elem := 0
                  sh := { ncrew := 1, core := 0, budget := 512, free := 0, kib := 64, tiles := 64 } }]
    crews := [{ uid := 0, idx := 0, size := 512, r := { pc := fetchAt }
                m := { om := Mask.all, xm := Mask.all } }]
    mem := { s.mem with mem := putBytes mem fetchAt.toNat bytes }
    mmu := { s.mmu with
      ctxs := [fetchCtx]
      filter := [{ core := 0, ctx := 0, page := 0, r := true, w := false }] }
    agenda := [.issue 0 0] }

end Sys2Proof.Machine
end

