-- ==== Sys2Proof/Safety.lean ====
section
/-! DEFINITION. The terms claims are stated in: the invariants of the data, which crew issues, and what a
unit leaves unchanged. -/

namespace Sys2Proof.Machine

/-! ## Invariants -/

/-- Global memory is in its canonical form: rising keys, no entry equal to what an unlisted byte reads as. -/
def State.memOk (s : State) : Prop := Memory.wf s.mem.mem = true

/-- So is every copy of device memory, the spaces of its two dies with their carve-outs, that a checkpoint keeps
(R246). -/
def State.tiersOk (s : State) : Prop :=
  ∀ k ∈ s.host.tiers, Memory.wf k.cells = true ∧ ∀ e ∈ k.cells, inHbm e.1 = true

/-- The execution mask of a crew, and the one that its handler returns to, lie within its occupancy mask
(R24). -/
def Crew.masksOk (c : Crew) : Prop := c.m.xm &&& c.m.om = c.m.xm ∧ c.h.xm &&& c.m.om = c.h.xm

/-- The masks of every crew, and of every copy of one that a checkpoint keeps (R246), are so. -/
def State.masksOk (s : State) : Prop :=
  (∀ c ∈ s.crews, c.masksOk) ∧ ∀ k ∈ s.host.tiers, ∀ c ∈ k.crews, c.masksOk

/-! ## Who issues -/

/-- Crew `c` of cohort `h` is the one that `cur` names. -/
def State.Issues (s : State) (c : Crew) (h : Cohort) : Prop :=
  s.crew? s.cur.1 s.cur.2 = some c ∧ s.cohort? s.cur.1 = some h

/-- No SSTEP trap follows the unit: TRAPEN.SSTEP is clear or a handler runs (R38, R227). -/
def Crew.NoStep (c : Crew) : Prop := (c.g.ccr.getLsbD 12 && !c.g.hnd) = false

/-- No arithmetic flag is enabled to trap (R38, R171). -/
def Crew.NoArith (c : Crew) : Prop := ∀ k < 6, c.g.ccr.getLsbD (4 + k) = false

/-! ## What a unit leaves unchanged -/

/-- From `s` to `t` crew `c` becomes `c'`, and nothing else of the machine changes: no other crew, cohort or
instance, no byte of memory, no engine, queue or register of the device. -/
def State.Only (s t : State) (c c' : Crew) : Prop :=
  t.crew? c.uid c.idx = some c' ∧ { t with crews := s.crews } = s ∧
    ∀ u i, (u ≠ c.uid ∨ i ≠ c.idx) → t.crew? u i = s.crew? u i

/-- A crew's names, stage, fault registers, shadow state, allocation and pending traps are as before. -/
def Crew.Fixed (c c' : Crew) : Prop :=
  c'.uid = c.uid ∧ c'.idx = c.idx ∧ c'.stage = c.stage ∧ c'.f = c.f ∧ c'.h = c.h ∧ c'.size = c.size
    ∧ c'.pend = c.pend ∧ c'.fail = c.fail ∧ c'.slot = c.slot

/-- A crew without the places of its registers in the pool and without the mark of a move of them (R36). -/
def Crew.settled (c : Crew) : Crew := { c with ext := [], g := { c.g with moving := false } }

/-- Every part of a crew but its registers, PC, masks, flags, control and waiting state is as before; what it may
observe of memory and its lane-private bytes too. -/
def Crew.Frame (c c' : Crew) : Prop :=
  c.Fixed c' ∧ c'.x.acq = c.x.acq ∧ c'.x.floors = c.x.floors ∧ c'.x.musts = c.x.musts ∧ c'.x.lp = c.x.lp

/-- No register of a crew changes. -/
def Crew.SameRegs (c c' : Crew) : Prop := c'.r.s = c.r.s ∧ c'.r.v = c.r.v ∧ c'.r.p = c.r.p

/-- No control or status register changes; the skid count of a halt in progress (R214) may. -/
def Crew.SameCtl (c c' : Crew) : Prop := { c'.g with skid := c.g.skid } = c.g

/-- As above, and the flag masks NFL may change too. -/
def Crew.SameCtlButFlags (c c' : Crew) : Prop := { c'.g with skid := c.g.skid, nfl := c.g.nfl } = c.g

/-- Instruction `i` answers a next state in which crew `c` has completed its unit and stands at `pc`,
nothing else of the machine has changed, and `P` holds of the crew. -/
def State.CompletesAt (s : State) (c : Crew) (i : Instr) (pc : Word) (P : Crew → Prop) : Prop :=
  ∃ t c', exec i s = .next t ∧ s.Only t c c' ∧ c.Frame c' ∧ c'.w = {} ∧ c'.r.pc = pc ∧ P c'

/-- As above, at the word after the unit. -/
def State.Completes (s : State) (c : Crew) (i : Instr) (P : Crew → Prop) : Prop :=
  s.CompletesAt c i c.nextPc P

/-- Instruction `i` answers a next state in which crew `c` has completed its unit with no change to its registers,
masks or control, every byte of memory and every instance as before, and `P` holds of that state: the shape of a
unit that sends something on its way. -/
def State.Sends (s : State) (c : Crew) (i : Instr) (P : State → Prop) : Prop :=
  ∃ t c', exec i s = .next t ∧ t.crew? c.uid c.idx = some c' ∧ c.Frame c' ∧ c'.w = {} ∧ c'.r.pc = c.nextPc
    ∧ c'.r.s = c.r.s ∧ c'.r.v = c.r.v ∧ c'.r.p = c.r.p ∧ c'.m = c.m ∧ { c'.g with skid := c.g.skid } = c.g
    ∧ t.mem.mem = s.mem.mem ∧ t.insts = s.insts ∧ P t

/-- Instruction `i` answers a next state in which crew `c` has completed its unit and become `c'`, its cohort `h`
has become `h'`, every byte of memory, every instance and every other crew is as before, and `P c' h'` holds. -/
def State.CohortOp (s : State) (c : Crew) (h : Cohort) (i : Instr) (P : Crew → Cohort → Prop) : Prop :=
  ∃ t c' h', exec i s = .next t ∧ t.crew? c.uid c.idx = some c' ∧ c.Frame c' ∧ c'.w = {} ∧ c'.r.pc = c.nextPc
    ∧ t.mem = s.mem ∧ t.insts = s.insts ∧ (∀ v j, (v ≠ c.uid ∨ j ≠ c.idx) → t.crew? v j = s.crew? v j)
    ∧ t.cohort? h.uid = some h' ∧ P c' h'

/-- Crew `c` has begun to wait for `k` at its unit, with no other change to it than the order of the wait. -/
def State.Waits (s : State) (c : Crew) (i : Instr) (k : Wait) : Prop :=
  ∃ t c', exec i s = .next t ∧ t.crew? c.uid c.idx = some c' ∧ c'.w.kind = k ∧ c'.r = c.r ∧ c'.m = c.m ∧ c'.g = c.g
    ∧ t.mem.mem = s.mem.mem ∧ t.insts = s.insts

/-- Only s[d] changes, to `v`; s0 still reads as zero (R29). -/
def Crew.TakesS (c : Crew) (d : Nat) (v : Word) (c' : Crew) : Prop :=
  (∀ n, c'.sr n = if n = d ∧ n ≠ 0 then v else c.sr n)
    ∧ c'.r.v = c.r.v ∧ c'.r.p = c.r.p ∧ c'.m = c.m ∧ c.SameCtl c'

/-- Only p[d] changes, to `v`; p0 still reads as all ones (R25). -/
def Crew.TakesP (c : Crew) (d : Nat) (v : Mask) (c' : Crew) : Prop :=
  (∀ n, c'.pr n = if n = d ∧ n ≠ 0 then v else c.pr n)
    ∧ c'.r.s = c.r.s ∧ c'.r.v = c.r.v ∧ c'.m = c.m ∧ c.SameCtl c'

/-- Only the execution mask changes, to `v` (R24). -/
def Crew.TakesXm (c : Crew) (v : Mask) (c' : Crew) : Prop :=
  c'.m.xm = v ∧ c'.m.om = c.m.om ∧ c.SameRegs c' ∧ c.SameCtl c'

/-- Only the control and status registers change, to `g`. -/
def Crew.TakesG (c : Crew) (g : Ctl) (c' : Crew) : Prop :=
  { c'.g with skid := g.skid } = g ∧ c'.m = c.m ∧ c.SameRegs c'

/-- A vector result (R24, R27, R169): element `j` of an active lane `l` of vD takes the low bits of `(g l j).1`, the other
lanes and registers keep their values, and each flag that an element of an active lane raises is ORed into
that lane's bit of its mask. -/
def Crew.TakesV (c : Crew) (d : Nat) (em : Mask) (t : Ty) (g : Nat → Nat → Nat × Fl) (c' : Crew) : Prop :=
  (∀ l < 32, mbit em l = true → ∀ j < t.count, elem t.width (c'.vl d l) j = (g l j).1 % 2 ^ t.width)
    ∧ (∀ n l, l < 32 → n ≠ d ∨ mbit em l = false → c'.vl n l = c.vl n l)
    ∧ (∀ k < 7, ∀ l < 32, mbit (c'.nfl k) l
        = (mbit (c.nfl k) l || (mbit em l && (List.range t.count).any (fun j => (g l j).2.bit k))))
    ∧ c'.r.s = c.r.s ∧ c'.r.p = c.r.p ∧ c'.m = c.m ∧ c.SameCtlButFlags c'

/-- A result of `n` registers from vD (R276): word `k` of an active lane `l` takes `f l k`, every other lane and
register keeps its value, and no flag changes. -/
def Crew.TakesWords (c : Crew) (d n : Nat) (em : Mask) (f : Nat → Nat → Word) (c' : Crew) : Prop :=
  (∀ l < 32, mbit em l = true → ∀ k < n, c'.vl (d + k) l = f l k)
    ∧ (∀ r l, l < 32 → (mbit em l = false ∨ r < d ∨ d + n ≤ r) → c'.vl r l = c.vl r l)
    ∧ c'.r.s = c.r.s ∧ c'.r.p = c.r.p ∧ c'.m = c.m ∧ c.SameCtl c'

/-! ## Accesses -/

/-- No access of crew `c` waits in the side log (R135). -/
def State.NoLog (s : State) (c : Crew) : Prop := ∀ e ∈ s.mem.log, e.uid ≠ c.uid ∨ e.idx ≠ c.idx

/-- An access of crew `c` to `n` bytes at `va` is allowed and its home is at `key` in this device's memory; data read
there is not poisoned (R129, R244). -/
def State.Homes (s : State) (c : Crew) (h : Cohort) (a : Acc) (va : Word) (n key : Nat) : Prop :=
  s.lane c (h.coreOf c.idx) h.ctx va a = .home key ∧ key / 2 ^ 56 ≠ 2 ∧ (a = .store ∨ s.poisoned key n = false)

/-- Byte `o` of a scratchpad (R98). -/
def Scratch.byte (x : Scratch) (o : Nat) : Nat := (SMap.get 0 x.w (o / 8)).toNat / 256 ^ (o % 8) % 256

/-- Every active lane's offset is aligned to `n` bytes and within the cohort's scratchpad (R98). -/
def Crew.SpOk (c : Crew) (h : Cohort) (em : Mask) (a b n : Nat) : Prop :=
  ∀ l ∈ activeLanes em, (laneAddr c a b l).toNat % n = 0 ∧ (laneAddr c a b l).toNat + n ≤ 1024 * h.sh.kib

/-! ## Traps -/

/-- The node's handler may run for a trap of crew `c` outside a handler, and its FRZ is clear (R215, R216). -/
def State.Handles (s : State) (c : Crew) (h : Cohort) : Prop :=
  (s.nodeOf h).handler ≠ 0 ∧ c.g.hnd = false ∧ h.halt = none ∧ c.g.ccr.getLsbD 13 = false

/-- Instruction `i` answers a next state in which crew `c` stands at the first word of its handler: the fault
registers hold the trap (R211), the shadow state the resume PC, xm and MSD, and HND is set and xm is om (R216).
The rest of the crew's control is as before but for NFL and XSR; no other crew, no instance and no byte of memory
changes. `regs` says what the unit itself did to the registers. -/
def State.Enters (s : State) (c : Crew) (i : Instr) (handler : Word) (t : Trap) (regs : Crew → Prop) : Prop :=
  ∃ u c', exec i s = .next u ∧ u.crew? c.uid c.idx = some c' ∧ regs c'
    ∧ c'.f = { pc := t.pc, cause := t.cause, lanes := t.lanes, addr := t.addr, lcause := t.lcause }
    ∧ c'.h.pc = t.resume ∧ c'.h.xm = c.m.xm ∧ c'.h.msd = c.m.msd ∧ c'.m = { c.m with xm := c.m.om }
    ∧ c'.g.hnd = true ∧ c'.g.ccr = c.g.ccr ∧ c'.g.wbase = c.g.wbase ∧ c'.w = {} ∧ c'.size = c.size
    ∧ c'.r.pc = handler ∧ u.insts = s.insts ∧ u.mem = s.mem ∧ u.eng = s.eng
    ∧ ∀ v j, (v ≠ c.uid ∨ j ≠ c.idx) → u.crew? v j = s.crew? v j

/-- A vector result of whole lanes with no flag (R334). -/
def Crew.TakesLanes (c : Crew) (d : Nat) (em : Mask) (g : Nat → Word) (c' : Crew) : Prop :=
  (∀ n l, l < 32 → c'.vl n l = if n = d ∧ mbit em l = true then g l else c.vl n l)
    ∧ c'.r.s = c.r.s ∧ c'.r.p = c.r.p ∧ c'.m = c.m ∧ c.SameCtlButFlags c'
    ∧ ∀ k < 7, ∀ l < 32, mbit (c'.nfl k) l = mbit (c.nfl k) l

end Sys2Proof.Machine
end

