-- ==== Sys2Proof/Certificates/Slice0/Obligations.lean ====
section
/-! DEFINITION. The statements about the model, one definition for each, in the order of the manual's
families. A definition under `Spec` is a part of the statement that follows it. -/

open Sys2Proof Sys2Proof.Machine

/-! ## Scalar instructions -/

/-- R271, R318: the register forms on 64 bits. A write to s0 is discarded (`TakesS`), and nothing else of the
machine changes. -/
def Obligations.ScalarRegisterForms : Prop :=
  ∀ (s : State) (c : Crew) (h : Cohort), s.Issues c h → c.NoStep → ∀ d a b : Nat,
    s.Completes c (.sadd d a b) (c.TakesS d (c.sr a + c.sr b))
    ∧ s.Completes c (.ssub d a b) (c.TakesS d (c.sr a - c.sr b))
    ∧ s.Completes c (.smul d a b) (c.TakesS d (c.sr a * c.sr b))
    ∧ s.Completes c (.smulh d a b)
        (c.TakesS d (BitVec.ofInt 64 ((c.sr a).toInt * (c.sr b).toInt / 18446744073709551616)))
    ∧ s.Completes c (.smulhN d a b)
        (c.TakesS d (BitVec.ofNat 64 ((c.sr a).toNat * (c.sr b).toNat / 18446744073709551616)))
    ∧ s.Completes c (.sand d a b) (c.TakesS d (c.sr a &&& c.sr b))
    ∧ s.Completes c (.sor d a b) (c.TakesS d (c.sr a ||| c.sr b))
    ∧ s.Completes c (.sxor d a b) (c.TakesS d (c.sr a ^^^ c.sr b))
    ∧ s.Completes c (.sandn d a b) (c.TakesS d (c.sr a &&& ~~~(c.sr b)))
    ∧ s.Completes c (.smin d a b) (c.TakesS d (BitVec.ofInt 64 (min (c.sr a).toInt (c.sr b).toInt)))
    ∧ s.Completes c (.smax d a b) (c.TakesS d (BitVec.ofInt 64 (max (c.sr a).toInt (c.sr b).toInt)))
    ∧ s.Completes c (.sminN d a b) (c.TakesS d (BitVec.ofNat 64 (min (c.sr a).toNat (c.sr b).toNat)))
    ∧ s.Completes c (.smaxN d a b) (c.TakesS d (BitVec.ofNat 64 (max (c.sr a).toNat (c.sr b).toNat)))
    ∧ s.Completes c (.smov d a) (c.TakesS d (c.sr a))
    ∧ ∀ q : Pred, s.Completes c (.ssel d a b q) (c.TakesS d (if c.em q = 0 then c.sr b else c.sr a))

/-- R271, R318: shifts by s[B] mod 64 and by an immediate count; SSRA divides by 2^n and rounds down. -/
def Spec.ScalarShifts : Prop :=
  ∀ (s : State) (c : Crew) (h : Cohort), s.Issues c h → c.NoStep → ∀ d a b n : Nat, n < 64 →
    s.Completes c (.sshl d a b)
        (c.TakesS d (BitVec.ofNat 64 ((c.sr a).toNat * 2 ^ ((c.sr b).toNat % 64))))
    ∧ s.Completes c (.sshr d a b)
        (c.TakesS d (BitVec.ofNat 64 ((c.sr a).toNat / 2 ^ ((c.sr b).toNat % 64))))
    ∧ s.Completes c (.ssra d a b)
        (c.TakesS d (BitVec.ofInt 64 ((c.sr a).toInt / 2 ^ ((c.sr b).toNat % 64))))
    ∧ s.Completes c (.sshlImm d a n) (c.TakesS d (BitVec.ofNat 64 ((c.sr a).toNat * 2 ^ n)))
    ∧ s.Completes c (.sshrImm d a n) (c.TakesS d (BitVec.ofNat 64 ((c.sr a).toNat / 2 ^ n)))
    ∧ s.Completes c (.ssraImm d a n) (c.TakesS d (BitVec.ofInt 64 ((c.sr a).toInt / 2 ^ n)))

/-- R271, R319: the immediate forms; SMOVI.hi keeps bits [35:0] of s[D]. -/
def Spec.ScalarImmediates : Prop :=
  ∀ (s : State) (c : Crew) (h : Cohort), s.Issues c h → c.NoStep → ∀ (d a : Nat) (imm : Int),
    s.Completes c (.saddi d a imm) (c.TakesS d (c.sr a + BitVec.ofInt 64 imm))
    ∧ s.Completes c (.sandi d a imm) (c.TakesS d (c.sr a &&& BitVec.ofInt 64 imm))
    ∧ s.Completes c (.sori d a imm) (c.TakesS d (c.sr a ||| BitVec.ofInt 64 imm))
    ∧ s.Completes c (.sxori d a imm) (c.TakesS d (c.sr a ^^^ BitVec.ofInt 64 imm))
    ∧ s.Completes c (.smovi d imm) (c.TakesS d (BitVec.ofInt 64 imm))
    ∧ s.Completes c (.smoviHi d imm)
        (c.TakesS d (((BitVec.ofInt 28 imm) ++ (c.sr d).setWidth 36).setWidth 64))

/-- Shifts and the immediate forms of the scalar unit (R271, R318, R319). -/
def Obligations.ScalarShiftsAndImmediates : Prop := Spec.ScalarShifts ∧ Spec.ScalarImmediates

/-- R271, R320: the field of s[B] is lo = s[B][5:0] and w = s[B][13:8] + 1; bits above 63 read 0. Stated bit by
bit. -/
def Spec.ScalarBitFields : Prop :=
  ∀ (s : State) (c : Crew) (h : Cohort), s.Issues c h → c.NoStep → ∀ d a b : Nat,
    let lo := (c.sr b).toNat % 64
    let w := (c.sr b).toNat / 256 % 64 + 1
    let bit (i : Nat) : Bool := (c.sr a).getLsbD (lo + i)
    (∃ v : Word, (∀ i < 64, v.getLsbD i = bit (min i (w - 1))) ∧ s.Completes c (.sbfx d a b) (c.TakesS d v))
    ∧ (∃ v : Word, (∀ i < 64, v.getLsbD i = (decide (i < w) && bit i))
        ∧ s.Completes c (.sbfxN d a b) (c.TakesS d v))
    ∧ (∃ v : Word, (∀ i < 64, v.getLsbD i = if lo ≤ i ∧ i < lo + w then (c.sr a).getLsbD (i - lo)
          else (c.sr d).getLsbD i)
        ∧ s.Completes c (.sbfi d a b) (c.TakesS d v))

/-- R271: SCLZ counts the zeros above the highest one, 64 of them when there is none; SPOPC counts the ones;
SSET writes 1 or 0. -/
def Spec.ScalarCountsAndSet : Prop :=
  ∀ (s : State) (c : Crew) (h : Cohort), s.Issues c h → c.NoStep → ∀ d a b : Nat,
    (∀ n ≤ 64, (c.sr a).toNat < 2 ^ (64 - n) → (n = 64 ∨ 2 ^ (63 - n) ≤ (c.sr a).toNat) →
      s.Completes c (.sclz d a) (c.TakesS d (BitVec.ofNat 64 n)))
    ∧ s.Completes c (.spopc d a)
        (c.TakesS d (BitVec.ofNat 64 ((List.range 64).filter (fun i => (c.sr a).getLsbD i)).length))
    ∧ s.Completes c (.sset .eq d a b) (c.TakesS d (if c.sr a = c.sr b then 1 else 0))
    ∧ s.Completes c (.sset .ne d a b) (c.TakesS d (if c.sr a = c.sr b then 0 else 1))
    ∧ s.Completes c (.sset .lt d a b) (c.TakesS d (if (c.sr a).toInt < (c.sr b).toInt then 1 else 0))
    ∧ s.Completes c (.sset .ge d a b) (c.TakesS d (if (c.sr a).toInt < (c.sr b).toInt then 0 else 1))
    ∧ s.Completes c (.sset .ltn d a b) (c.TakesS d (if (c.sr a).toNat < (c.sr b).toNat then 1 else 0))
    ∧ s.Completes c (.sset .gen d a b) (c.TakesS d (if (c.sr a).toNat < (c.sr b).toNat then 0 else 1))

/-- Bit fields, counts and SSET (R271, R320). -/
def Obligations.ScalarFieldsAndTests : Prop := Spec.ScalarBitFields ∧ Spec.ScalarCountsAndSet

/-! ## Branches, predicates and masks -/

/-- R25, R259, R295, R299: every branch completes at its target, 4 × OFF14 from its own word, or at the next
word; CALL writes the return address to s191; no register but s191 changes. -/
def Spec.BranchTargets : Prop :=
  ∀ (s : State) (c : Crew) (h : Cohort), s.Issues c h → c.NoStep → ∀ (r p : Nat) (off : Int),
    let tgt : Word := c.nextPc - 4 + BitVec.ofInt 64 (4 * off)
    let same (c' : Crew) : Prop := c.SameRegs c' ∧ c'.m = c.m ∧ c.SameCtl c'
    let x : Int := (c.sr r).toInt
    let at_ (b : Bool) : Word := if b then tgt else c.nextPc
    s.CompletesAt c (.bra off) tgt same
    ∧ s.CompletesAt c (.bcc .z r off) (at_ (decide (x = 0))) same
    ∧ s.CompletesAt c (.bcc .nz r off) (at_ (decide (x ≠ 0))) same
    ∧ s.CompletesAt c (.bcc .lt r off) (at_ (decide (x < 0))) same
    ∧ s.CompletesAt c (.bcc .ge r off) (at_ (decide (0 ≤ x))) same
    ∧ s.CompletesAt c (.bcc .gt r off) (at_ (decide (0 < x))) same
    ∧ s.CompletesAt c (.bcc .le r off) (at_ (decide (x ≤ 0))) same
    ∧ s.CompletesAt c (.bccPred .pany p off) (at_ (decide (c.pr p &&& c.m.xm ≠ 0))) same
    ∧ s.CompletesAt c (.bccPred .pnone p off) (at_ (decide (c.pr p &&& c.m.xm = 0))) same
    ∧ s.CompletesAt c (.bccPred .pall p off) (at_ (decide (c.pr p &&& c.m.xm = c.m.xm))) same
    ∧ s.CompletesAt c (.call off) tgt (c.TakesS 191 c.nextPc)

/-- R309: RET and JMPI go to s191 and s[A] when that is a word address. -/
def Spec.Jumps : Prop :=
  ∀ (s : State) (c : Crew) (h : Cohort), s.Issues c h → c.NoStep → ∀ a : Nat,
    let same (c' : Crew) : Prop := c.SameRegs c' ∧ c'.m = c.m ∧ c.SameCtl c'
    ((c.sr 191).toNat % 4 = 0 → s.CompletesAt c .ret (c.sr 191) same)
    ∧ ((c.sr a).toNat % 4 = 0 → s.CompletesAt c (.jmpi a) (c.sr a) same)

/-- R309, R211: a jump to an address that is no word address goes nowhere: MISALIGN with the target in FADDR
and no lane, resuming at the word after the jump. -/
def Spec.JumpMisaligned : Prop :=
  ∀ (s : State) (c : Crew) (h : Cohort), s.Issues c h → s.Handles c h → ∀ a : Nat,
    let trap (x : Word) : Trap := { cause := 3, pc := c.r.pc, addr := x, resume := c.nextPc }
    ((c.sr 191).toNat % 4 ≠ 0 → s.Enters c .ret (s.nodeOf h).handler (trap (c.sr 191)) c.SameRegs)
    ∧ ((c.sr a).toNat % 4 ≠ 0 → s.Enters c (.jmpi a) (s.nodeOf h).handler (trap (c.sr a)) c.SameRegs)

/-- Branches, calls, returns and jumps: where they go, and the jumps that trap (R25, R211, R259, R295, R299, R309). -/
def Obligations.Branches : Prop := Spec.BranchTargets ∧ Spec.Jumps ∧ Spec.JumpMisaligned

/-- R272, R312, R313: predicate results on all 32 bits whatever xm holds, a write to p0 discarded, and the
counts of PCNT under xm. -/
def Spec.Predicates : Prop :=
  ∀ (s : State) (c : Crew) (h : Cohort), s.Issues c h → c.NoStep → ∀ d a b : Nat,
    let n : Nat := ((List.range 32).filter (fun l => (c.pr a).getLsbD l && c.m.xm.getLsbD l)).length
    let m : Nat := ((List.range 32).filter (fun l => c.m.xm.getLsbD l)).length
    s.Completes c (.pand d a b) (c.TakesP d (c.pr a &&& c.pr b))
    ∧ s.Completes c (.por d a b) (c.TakesP d (c.pr a ||| c.pr b))
    ∧ s.Completes c (.pxor d a b) (c.TakesP d (c.pr a ^^^ c.pr b))
    ∧ s.Completes c (.pnot d a) (c.TakesP d (~~~(c.pr a)))
    ∧ s.Completes c (.pcnt d a) (c.TakesS d (BitVec.ofNat 64 n))
    ∧ s.Completes c (.pcntAny d a) (c.TakesS d (if n = 0 then 0 else 1))
    ∧ s.Completes c (.pcntAll d a) (c.TakesS d (if n = m then 1 else 0))

/-- R26, R365, R24: the mask instructions where R26 gives them an effect. In a handler the entry read must lie
above the saved depth (R216). -/
def Spec.MaskStack : Prop :=
  ∀ (s : State) (c : Crew) (h : Cohort), s.Issues c h → c.NoStep → ∀ p : Nat,
    let top : Mask := SMap.get 0 c.m.stack (c.m.msd - 1)
    let floor : Nat := if c.g.hnd then c.h.msd else 0
    s.Completes c (.xmset p) (fun c' => c.TakesXm (c.pr p &&& c.m.om) c'
      ∧ c'.m.stack = c.m.stack ∧ c'.m.msd = c.m.msd)
    ∧ (c.m.msd < 32 → s.Completes c (.xmpush p) (fun c' => c.TakesXm (c.m.xm &&& c.pr p &&& c.m.om) c'
      ∧ c'.m.msd = c.m.msd + 1
      ∧ ∀ i, SMap.get 0 c'.m.stack i = if i = c.m.msd then c.m.xm else SMap.get 0 c.m.stack i))
    ∧ (floor < c.m.msd → s.Completes c .xmelse (fun c' => c.TakesXm (top &&& ~~~c.m.xm &&& c.m.om) c'
      ∧ c'.m.stack = c.m.stack ∧ c'.m.msd = c.m.msd))
    ∧ (floor < c.m.msd → s.Completes c .xmpop (fun c' => c.TakesXm (top &&& c.m.om) c'
      ∧ c'.m.stack = c.m.stack ∧ c'.m.msd = c.m.msd - 1))

/-- Predicate instructions and the execution mask with its stack (R24, R26, R216, R272, R312, R313, R365). -/
def Obligations.PredicatesAndMasks : Prop := Spec.Predicates ∧ Spec.MaskStack

/-! ## System instructions -/

/-- R37 to R40, R326: what SYSRD writes to s[D] for each register of the map. -/
def Spec.SystemReads : Prop :=
  ∀ (s : State) (c : Crew) (h : Cohort), s.Issues c h → c.NoStep → ∀ d : Nat,
    let rd (n : Int) (v : Word) : Prop := s.Completes c (.sysrd d n) (c.TakesS d v)
    let core := h.coreOf c.idx
    rd 0 c.g.ccr
    ∧ rd 1 (BitVec.ofNat 64 (2 ^ 32 * c.m.xm.toNat + 2 ^ 16 * c.g.skid + 2 ^ 10 * c.m.msd + 2 ^ 9 * c.g.hnd.toNat))
    ∧ rd 2 (BitVec.ofNat 64 (c.g.xsr + 2 ^ 38 * c.g.xdev))
    ∧ rd 3 (BitVec.ofNat 64 (8 * c.g.wbase))
    ∧ rd 4 (BitVec.ofNat 64 h.node) ∧ rd 5 (BitVec.ofNat 64 h.elem)
    ∧ rd 6 (BitVec.ofNat 64 (h.x % 2 ^ 20 + h.y % 2 ^ 20 * 2 ^ 20 + h.z % 2 ^ 20 * 2 ^ 40))
    ∧ rd 7 (BitVec.ofNat 64 c.idx) ∧ rd 8 (BitVec.ofNat 64 c.stage) ∧ rd 9 (BitVec.ofNat 64 h.sh.ncrew)
    ∧ rd 10 (BitVec.ofNat 64 h.recs.length)
    ∧ rd 11 (BitVec.ofNat 64 (s.host.fw.devid + 2 ^ 10 * (core / 96) + 2 ^ 16 * core))
    ∧ rd 12 (BitVec.ofNat 64 s.clk.ns)
    ∧ (∀ k : Nat, k < 7 → rd (16 + (k : Int)) ((c.nfl k).setWidth 64))
    ∧ rd 32 (BitVec.ofNat 64 (2 ^ 32 * h.sh.budget + 2 ^ 16 * h.sh.free + (4096 - s.poolUsed core)))
    ∧ rd 33 (BitVec.ofNat 64 (2 ^ 16 * extents c.size + c.size))
    ∧ rd 48 c.f.pc ∧ rd 49 (BitVec.ofNat 64 c.f.cause) ∧ rd 50 (c.f.lanes.setWidth 64) ∧ rd 51 c.f.addr
    ∧ rd 52 c.f.lcause

/-- R327, R363, R317: the writes of control registers. CCR keeps its reserved bits zero, a one clears a bit of
XSR or NFL, and no other register changes. -/
def Spec.SystemWrites : Prop :=
  ∀ (s : State) (c : Crew) (h : Cohort), s.Issues c h → c.NoStep → ∀ (a d n : Nat),
    let v := c.sr a
    (v.toNat % 8 < 6 → s.Completes c (.syswr a 0) (c.TakesG { c.g with ccr := v &&& 0x37FF }))
    ∧ s.Completes c (.syswr a 3) (c.TakesG { c.g with wbase := v.toNat / 8 % 64 })
    ∧ (∃ x < 8, (∀ i < 3, bitOf x i = (bitOf c.g.xsr i && !v.getLsbD i))
        ∧ s.Completes c (.syswr a 2) (c.TakesG { c.g with xsr := x, xdev := if x = 0 then 0 else c.g.xdev }))
    ∧ (∀ k : Nat, k < 7 → s.Completes c (.syswr a (16 + (k : Int))) (fun c' =>
        (∀ j, c'.nfl j = if j = k then c.nfl k &&& ~~~(v.setWidth 32) else c.nfl j)
          ∧ c'.m = c.m ∧ c.SameRegs c' ∧ c.SameCtlButFlags c'))
    ∧ (n < 64 → s.Completes c (.wbase n) (c.TakesG { c.g with wbase := n }))
    ∧ s.Completes c (.rngsetSeed a) (c.TakesG { c.g with seed := v })
    ∧ s.Completes c (.rngsetCtr a) (c.TakesG { c.g with ctr := v })
    ∧ s.Completes c (.rnggetCtr d) (c.TakesS d c.g.ctr)
    ∧ s.Completes c (.rnggetSeed d) (c.TakesS d c.g.seed)

/-- SYSRD and SYSWR on every register they reach (R3, R40, R317, R326, R327, R363). -/
def Obligations.SystemRegisters : Prop := Spec.SystemReads ∧ Spec.SystemWrites

/-- R34, R35, R315: REGREL returns the top n registers to the cohort's free budget, when no claim of the cohort waits, and
REGCLM takes n that read zero, when no earlier claim waits: one of an earlier cycle, or of a lower crew in this cycle; a
claim of more than the budget holds, or behind an earlier one that waits, waits.
Memory, instances and other crews are unchanged, but for where the compactor puts registers and whom it holds, which
is the model's (R36, log entry 14). -/
def Obligations.RegisterPool : Prop :=
  ∀ (s : State) (c : Crew) (h : Cohort), s.Issues c h → c.NoStep → c.w = {} → ∀ n : Nat, 0 < n → n % 8 = 0 →
    let none_ : Prop := s.claims h.uid = []
    let ahead : Prop := ∃ k ∈ s.claims h.uid, k.1 < s.clk.cycle ∨ (k.1 = s.clk.cycle ∧ k.2.1 < c.idx)
    let free (t : State) (f : Nat) : Prop := t.cohort? h.uid = some { h with sh := { h.sh with free := f } }
    let rest (t : State) : Prop := t.insts = s.insts ∧ t.mem.mem = s.mem.mem
      ∧ ∀ v j, (v ≠ c.uid ∨ j ≠ c.idx) → (t.crew? v j).map Crew.settled = (s.crew? v j).map Crew.settled
    (none_ → n < c.size → ∃ t c', exec (.regrel n) s = .next t ∧ t.crew? c.uid c.idx = some c'
      ∧ c'.size = c.size - n ∧ c'.r.pc = c.nextPc ∧ c'.r.s = c.r.s ∧ c'.r.p = c.r.p ∧ c'.m = c.m
      ∧ c.SameCtl { c' with g := { c'.g with moving := c.g.moving } }
      ∧ (∀ r l, l < 32 → c'.vl r l = if c.vix r < c.size - n then c.vl r l else 0)
      ∧ free t (h.sh.free + n) ∧ rest t)
    ∧ (¬ ahead → n ≤ h.sh.free → c.size + n ≤ 512 → ∃ t c', exec (.regclm n) s = .next t ∧ t.crew? c.uid c.idx = some c'
      ∧ c'.size = c.size + n ∧ c'.r.pc = c.nextPc ∧ c'.r.s = c.r.s ∧ c'.r.p = c.r.p ∧ c'.m = c.m
      ∧ c.SameCtl { c' with g := { c'.g with moving := c.g.moving } }
      ∧ (∀ r l, l < 32 → c'.vl r l = if c.vix r < c.size then c.vl r l else 0)
      ∧ free t (h.sh.free - n) ∧ rest t)
    ∧ (h.sh.free < n ∨ ahead → c.size + n ≤ 512 →
      (∃ d ∈ s.crewsOf h.uid, d.idx ≠ c.idx ∧ d.g.exited = false ∧ d.w.kind = .none) →
      s.Waits c (.regclm n) (.regclm n))

/-- R298, R329, R216, R217: BRK and TRAP enter the node's handler after the instruction, with no lane, and
leave every register as it stands; the resume PC is the next word. -/
def Spec.SoftwareTraps : Prop :=
  ∀ (s : State) (c : Crew) (h : Cohort), s.Issues c h → s.Handles c h → ∀ a : Nat,
    let trap (cause : Nat) : Trap := { cause := cause, pc := c.r.pc, resume := c.nextPc }
    s.Enters c .brk (s.nodeOf h).handler (trap 12) c.SameRegs
    ∧ s.Enters c (.trap a) (s.nodeOf h).handler (trap 14) c.SameRegs

/-- R218, R330, R216: TRET in a handler goes to the resume PC and restores xm and MSD; registers, flags and
fault registers keep what the handler left (`Frame`). The crews that this crew's trap froze go on. -/
def Spec.ReturnFromHandler : Prop :=
  ∀ (s : State) (c : Crew) (h : Cohort), s.Issues c h → c.g.hnd = true → c.g.exited = false → c.h.w = {} →
    (h.halt = none → s.CompletesAt c .tret c.h.pc (fun c' =>
      c'.m = { c.m with xm := c.h.xm, msd := c.h.msd } ∧ c.SameRegs c'
        ∧ { c'.g with skid := c.g.skid } = { c.g with hnd := false }))
    ∧ (∀ k, h.halt = some k → k.crew = c.idx → k.abort = false → ∃ t, exec .tret s = .next t
      ∧ t.cohort? h.uid = some { h with halt := none }
      ∧ (∀ d ∈ t.crews, d.uid = h.uid → d.idx ≠ c.idx → d.g.frozen = false ∧ d.g.stopping = false)
      ∧ ∃ c', t.crew? c.uid c.idx = some c' ∧ c'.r.pc = c.h.pc ∧ c'.m.xm = c.h.xm ∧ c'.m.msd = c.h.msd
        ∧ c'.g.hnd = false ∧ c.SameRegs c')

/-- BRK and TRAP enter the handler; TRET leaves it (R216, R217, R218, R298, R329, R330). Of this, the progress kept
for a unit entered again is the model's (log entry 37). -/
def Obligations.TrapsAndReturn : Prop := Spec.SoftwareTraps ∧ Spec.ReturnFromHandler

/-- R311, R367, R224: NOP changes nothing but the PC. YIELD waits at a blocking point and, once a round of its
die has ended the wait, goes on with the next instruction. -/
def Spec.NopAndYield : Prop :=
  ∀ (s : State) (c : Crew) (h : Cohort), s.Issues c h → c.NoStep →
    let same (c' : Crew) : Prop := c.SameRegs c' ∧ c'.m = c.m ∧ c.SameCtl c'
    s.Completes c .nop same
    ∧ (c.w.begun = true → c.w.kind = .none → s.Completes c .yield same)
    ∧ (c.w = {} → ∃ t c', exec .yield s = .next t ∧ t.crew? c.uid c.idx = some c' ∧ c'.w.kind = .yield
        ∧ c'.w.begun = true ∧ c'.r = c.r ∧ c'.m = c.m ∧ c'.g = c.g ∧ t.mem = s.mem)

/-- R306, R116, R227: a crew that owes no access exits. While another crew of its cohort runs, it is only marked, and
under SSTEP then runs its handler; when it is the last and no item or store of the cohort is on its way, the cohort
retires and leaves the core, with the EXIT itself or, under SSTEP, with the TRET of the handler. -/
def Spec.Exit : Prop :=
  ∀ (s : State) (c : Crew) (h : Cohort), s.Issues c h → c.fail = none → h.halt = none → c.pend = [] →
    let last : Prop := (∀ d ∈ s.crewsOf h.uid, d.idx = c.idx
        ∨ (d.g.exited = true ∧ d.g.hnd = false ∧ d.w.kind = .none ∧ d.pend = [])) ∧ h.ev ≠ .dead
      ∧ (∀ x ∈ s.eng.items, x.uid ≠ h.uid) ∧ s.owes h.uid = false
    let retires (i : Instr) : Prop := ∃ t, exec i s = .next t ∧ t.cohort? h.uid = none ∧ s.crewsOf h.uid ≠ []
      ∧ t.crewsOf h.uid = [] ∧ t.mem = s.mem
    (c.g.hnd = true → c.g.exited = true → c.h.w = {} → last → retires .tret)
    ∧ (c.g.hnd = false → s.release c h 3 = .done →
    let others : Prop := ∃ d ∈ s.crewsOf h.uid, d.idx ≠ c.idx ∧ d.g.exited = false ∧ d.w.kind = .none
    (others → h.bars = [] → c.g.ccr.getLsbD 12 = true → s.Handles c h → s.Enters c .exit (s.nodeOf h).handler
      { cause := 13, pc := c.r.pc, resume := c.nextPc } (fun c' => c'.g.exited = true ∧ c.SameRegs c'))
    ∧ (others → c.NoStep →
      ∃ t c', exec .exit s = .next t ∧ t.crew? c.uid c.idx = some c' ∧ c'.g.exited = true ∧ c'.r.pc = c.nextPc
        ∧ c.SameRegs c' ∧ t.mem = s.mem ∧ t.insts = s.insts)
    ∧ (c.NoStep → last → retires .exit))

/-- NOP, YIELD and EXIT (R116, R224, R227, R306, R311, R367). Of this, what SSTEP makes of a crew that has exited is
the model's (log entry 36). -/
def Obligations.NopYieldExit : Prop := Spec.NopAndYield ∧ Spec.Exit

/-- R210, R212, R217: the units that the rules reject take ILLEGAL (1), or PRIV (2) for a read-only register,
before any effect; the handler resumes at the next word. -/
def Spec.IllegalUnits : Prop :=
  ∀ (s : State) (c : Crew) (h : Cohort), s.Issues c h → s.Handles c h → ∀ (a d p : Nat) (n : Int),
    let traps (i : Instr) (cause : Nat) : Prop :=
      s.Enters c i (s.nodeOf h).handler { cause := cause, pc := c.r.pc, resume := c.nextPc } c.SameRegs
    (c.m.msd = 0 → traps .xmpop 1 ∧ traps .xmelse 1)
    ∧ (32 ≤ c.m.msd → traps (.xmpush p) 1)
    ∧ (n < 0 ∨ 63 < n → traps (.wbase n) 1)
    ∧ (n ≤ 0 ∨ n % 8 ≠ 0 ∨ (c.size : Int) ≤ n → traps (.regrel n) 1)
    ∧ (c.w.begun = false → n ≤ 0 ∨ n % 8 ≠ 0 ∨ 512 < (c.size : Int) + n → traps (.regclm n) 1)
    ∧ traps .tret 1
    ∧ (6 ≤ (c.sr a).toNat % 8 → traps (.syswr a 0) 1)
    ∧ (n = 1 ∨ (4 ≤ n ∧ n ≤ 12) ∨ n = 32 ∨ n = 33 ∨ (48 ≤ n ∧ n ≤ 52) → traps (.syswr a n) 2)
    ∧ (n < 0 ∨ (12 < n ∧ n < 16) ∨ (22 < n ∧ n < 32) ∨ (33 < n ∧ n < 48) ∨ 52 < n →
        traps (.syswr a n) 1 ∧ traps (.sysrd d n) 1)

/-- R227, R38: under SSTEP outside a handler a unit that completes traps SSTEP (13) after its effect; here NOP,
BRA and a scalar form. -/
def Spec.SingleStep : Prop :=
  ∀ (s : State) (c : Crew) (h : Cohort), s.Issues c h → s.Handles c h → c.g.ccr.getLsbD 12 = true → c.w = {} →
    ∀ (d a b : Nat) (off : Int),
    let trap (pc : Word) : Trap := { cause := 13, pc := c.r.pc, resume := pc }
    s.Enters c .nop (s.nodeOf h).handler (trap c.nextPc) c.SameRegs
    ∧ s.Enters c (.bra off) (s.nodeOf h).handler (trap (c.nextPc - 4 + BitVec.ofInt 64 (4 * off))) c.SameRegs
    ∧ s.Enters c (.sadd d a b) (s.nodeOf h).handler (trap c.nextPc) (fun c' =>
        ∀ n, c'.sr n = if n = d ∧ n ≠ 0 then c.sr a + c.sr b else c.sr n)

/-- Units that the rules reject trap before any effect; SSTEP traps after it (R38, R210, R212, R217, R227). -/
def Obligations.IllegalAndSingleStep : Prop := Spec.IllegalUnits ∧ Spec.SingleStep

/-! ## Vector instructions -/

/-- The value of an integer result of type `t` (R333): under SAT clamped to the range with SAT set, else wrapped
with IO set when a signed result does not fit. -/
def Spec.intElem (t : Ty) (sat : Bool) (x : Int) : Nat × Fl :=
  let fits := decide (minInt t ≤ x ∧ x ≤ maxInt t)
  if sat then (wrapTo t.width (max (minInt t) (min (maxInt t) x)), { sat := !fits })
  else (wrapTo t.width x, { io := t.isSigned && !fits })

/-- R333, R348, R253: the integer arithmetic by element, on vB or under BS on s[B]; VMULH gives the high half and
sets no flag. -/
def Spec.VectorArithmetic : Prop :=
  ∀ (s : State) (c : Crew) (h : Cohort), s.Issues c h → c.NoStep → c.NoArith →
    ∀ (d a : Nat) (b : VOp) (t : Ty) (q : Pred) (sat : Bool) (imm : Int), t.isInt = true →
    c.vOk d 1 = true → c.vOk a 1 = true → c.bOk b = true →
    let x (l j : Nat) : Int := readInt t (elem t.width (c.vl a l) j)
    let y (l j : Nat) : Int := readInt t (bElem c b t.width l j)
    let z (l j : Nat) : Int := readInt t (elem t.width (c.vl d l) j)
    let r (g : Nat → Nat → Int) : Crew → Prop := c.TakesV d (c.em q) t (fun l j => Spec.intElem t sat (g l j))
    s.Completes c (.vadd d a b t q sat) (r (fun l j => x l j + y l j))
    ∧ s.Completes c (.vsub d a b t q sat) (r (fun l j => x l j - y l j))
    ∧ s.Completes c (.vmul d a b t q sat) (r (fun l j => x l j * y l j))
    ∧ s.Completes c (.vmad d a b t q sat) (r (fun l j => x l j * y l j + z l j))
    ∧ s.Completes c (.vaddi d a imm t q sat) (r (fun l j => x l j + readInt t (wrapTo t.width imm)))
    ∧ s.Completes c (.vmulh d a b t q)
        (c.TakesV d (c.em q) t (fun l j => (wrapTo t.width (x l j * y l j / (2 ^ t.width : Nat)), {})))

/-- R172, R340: division truncates toward zero; by zero it sets DZ, gives the type's extreme by the dividend's
sign, and the remainder is the dividend; the one signed overflow sets IO. -/
def Spec.VectorDivision : Prop :=
  ∀ (s : State) (c : Crew) (h : Cohort), s.Issues c h → c.NoStep → c.NoArith →
    ∀ (d a : Nat) (b : VOp) (t : Ty) (q : Pred), t.isInt = true →
    c.vOk d 1 = true → c.vOk a 1 = true → c.bOk b = true →
    let x (l j : Nat) : Int := readInt t (elem t.width (c.vl a l) j)
    let y (l j : Nat) : Int := readInt t (bElem c b t.width l j)
    let fl (l j : Nat) : Fl :=
      { dz := decide (y l j = 0), io := t.isSigned && decide (x l j = minInt t ∧ y l j = -1) }
    let zero (l j : Nat) : Int := if x l j < 0 then minInt t else maxInt t
    s.Completes c (.vdiv d a b t q) (c.TakesV d (c.em q) t (fun l j =>
      (wrapTo t.width (if y l j = 0 then zero l j else (x l j).tdiv (y l j)), fl l j)))
    ∧ s.Completes c (.vrem d a b t q) (c.TakesV d (c.em q) t (fun l j =>
      (wrapTo t.width (if y l j = 0 then x l j else (x l j).tmod (y l j)), fl l j)))

/-- Integer arithmetic on vector elements, division by zero included (R172, R253, R333, R340, R348). -/
def Obligations.VectorIntegers : Prop := Spec.VectorArithmetic ∧ Spec.VectorDivision

/-- R334, R350: lane logic and the moves, on whole lanes, with no flag. -/
def Spec.VectorLanes : Prop :=
  ∀ (s : State) (c : Crew) (h : Cohort), s.Issues c h → c.NoStep → c.NoArith →
    ∀ (d a : Nat) (b : VOp) (p : Nat) (q : Pred), c.vOk d 1 = true → c.vOk a 1 = true → c.bOk b = true →
    let r (g : Nat → Word) : Crew → Prop := c.TakesLanes d (c.em q) g
    s.Completes c (.vand d a b q) (r (fun l => c.vl a l &&& c.bl b l))
    ∧ s.Completes c (.vor d a b q) (r (fun l => c.vl a l ||| c.bl b l))
    ∧ s.Completes c (.vxor d a b q) (r (fun l => c.vl a l ^^^ c.bl b l))
    ∧ s.Completes c (.vnot d a q) (r (fun l => ~~~(c.vl a l)))
    ∧ s.Completes c (.vmov d a q) (r (c.vl a))
    ∧ (∀ k, s.Completes c (.vmovBcast d k q) (r (fun _ => c.sr k)))
    ∧ s.Completes c (.vmovLane d q) (r (fun l => BitVec.ofNat 64 l))
    ∧ s.Completes c (.vsel d a b p q) (r (fun l => if mbit (c.pr p) l then c.vl a l else c.bl b l))

/-- R357, R349, R336, R350: shifts by the matching element of vB, or by all of s[B], modulo the width; signed or
unsigned minimum and maximum; counts; VMOVI. No flag is set. -/
def Spec.VectorElements : Prop :=
  ∀ (s : State) (c : Crew) (h : Cohort), s.Issues c h → c.NoStep → c.NoArith →
    ∀ (d a : Nat) (b : VOp) (t : Ty) (q : Pred) (imm : Int), t.isInt = true →
    c.vOk d 1 = true → c.vOk a 1 = true → c.bOk b = true →
    let w := t.width
    let x (l j : Nat) : Nat := elem w (c.vl a l) j
    let y (l j : Nat) : Nat := bElem c b w l j
    let n (l j : Nat) : Nat := match b with
      | .v k => elem w (c.vl k l) j % w
      | .s k => (c.sr k).toNat % w
    let r (g : Nat → Nat → Nat) : Crew → Prop := c.TakesV d (c.em q) t (fun l j => (g l j, {}))
    s.Completes c (.vshl d a b t q) (r (fun l j => x l j * 2 ^ n l j % 2 ^ w))
    ∧ s.Completes c (.vshr d a b t q) (r (fun l j => x l j / 2 ^ n l j))
    ∧ s.Completes c (.vsra d a b t q) (r (fun l j => wrapTo w (toSigned w (x l j) / 2 ^ n l j)))
    ∧ s.Completes c (.vmin d a b t q) (r (fun l j =>
        if readInt t (x l j) ≤ readInt t (y l j) then x l j else y l j))
    ∧ s.Completes c (.vmax d a b t q) (r (fun l j =>
        if readInt t (x l j) ≤ readInt t (y l j) then y l j else x l j))
    ∧ s.Completes c (.vpopc d a t q) (r (fun l j =>
        ((List.range w).filter (fun i => x l j / 2 ^ i % 2 = 1)).length))
    ∧ s.Completes c (.vclz d a t q) (r (fun l j =>
        ((List.range w).filter (fun i => x l j < 2 ^ i)).length))
    ∧ s.Completes c (.vmovi d imm t q) (r (fun _ _ => wrapTo w imm))

/-- R337, R24: VCMP on integers writes the bit of each active lane and keeps the others, from element `e` of the
lane. -/
def Spec.VectorCompareIntegers : Prop :=
  ∀ (s : State) (c : Crew) (h : Cohort), s.Issues c h → c.NoStep → c.NoArith →
    ∀ (d a : Nat) (b : VOp) (t : Ty) (e : Nat) (q : Pred), t.isInt = true → e < t.count →
    c.vOk a 1 = true → c.bOk b = true →
    let x (l : Nat) : Int := readInt t (elem t.width (c.vl a l) e)
    let y (l : Nat) : Int := readInt t (bElem c b t.width l e)
    let r (g : Nat → Bool) (c' : Crew) : Prop :=
      (∀ l < 32, mbit (c'.pr d) l = if d = 0 then true else if mbit (c.em q) l then g l else mbit (c.pr d) l)
        ∧ (∀ k, k ≠ d → c'.pr k = c.pr k) ∧ (∀ k < 7, c'.nfl k = c.nfl k) ∧ c'.r.s = c.r.s ∧ c'.r.v = c.r.v ∧ c'.m = c.m ∧ c.SameCtlButFlags c'
    s.Completes c (.vcmpEq d a b t e q) (r (fun l => decide (x l = y l)))
    ∧ s.Completes c (.vcmpNe d a b t e q) (r (fun l => decide (x l ≠ y l)))
    ∧ s.Completes c (.vcmpLt d a b t e q) (r (fun l => decide (x l < y l)))
    ∧ s.Completes c (.vcmpLe d a b t e q) (r (fun l => decide (x l ≤ y l)))

/-- R341: VDP4 and VDP8 add the exact products of 8-bit or 4-bit sub-elements to the 32-bit element of vD; SA and
SB choose the signedness, and the result is signed when either is set. -/
def Spec.VectorDotProducts : Prop :=
  ∀ (s : State) (c : Crew) (h : Cohort), s.Issues c h → c.NoStep → c.NoArith →
    ∀ (d a b : Nat) (sat sb sa : Bool) (q : Pred), c.vOk d 1 = true → c.vOk a 1 = true → c.vOk b 1 = true →
    let t : Ty := if sa || sb then .s32 else .n32
    let rd (sg : Bool) (w : Nat) (v : Word) (i : Nat) : Int :=
      if sg then toSigned w (elem w v i) else (elem w v i : Int)
    let sum (n w l j : Nat) : Int := ((List.range n).map (fun k =>
      rd sa w (c.vl a l) (n * j + k) * rd sb w (c.vl b l) (n * j + k))).sum
    let r (n w : Nat) : Crew → Prop := c.TakesV d (c.em q) t (fun l j =>
      Spec.intElem t sat (readInt t (elem 32 (c.vl d l) j) + sum n w l j))
    s.Completes c (.vdp4 d a b sat sb sa q) (r 4 8) ∧ s.Completes c (.vdp8 d a b sat sb sa q) (r 8 4)

/-- Bitwise, per-element and dot-product forms of vector instructions (R334, R336, R341, R349, R350, R357). -/
def Obligations.VectorLaneForms : Prop := Spec.VectorLanes ∧ Spec.VectorElements ∧ Spec.VectorDotProducts

/-- R343, R344, R345, R355, R161: the float arithmetic by element: operands flushed under FTZ, one rounding by the
mode of the XP field or of CCR; VFMIN, VFMAX and VSF round by no mode of the crew's. -/
def Spec.FloatInstructions : Prop :=
  ∀ (s : State) (c : Crew) (h : Cohort), s.Issues c h → c.NoStep → c.NoArith →
    ∀ (d a : Nat) (b : VOp) (t : Ty) (q : Pred) (rnd : Nat) (f : SfFn),
    c.vOk d 1 = true → c.vOk a 1 = true → c.bOk b = true →
    let z := c.ftz
    let m := c.rmode rnd
    let x (l j : Nat) : FV := operandF z t (elem t.width (c.vl a l) j)
    let y (l j : Nat) : FV := operandF z t (bElem c b t.width l j)
    let w (l j : Nat) : FV := operandF z t (elem t.width (c.vl d l) j)
    let r (g : Nat → Nat → Nat × Fl) : Crew → Prop := c.TakesV d (c.em q) t g
    s.Completes c (.vfadd d a b t q rnd) (r (fun l j => addF t m z (x l j) (y l j)))
    ∧ s.Completes c (.vfsub d a b t q rnd) (r (fun l j => addF t m z (x l j) (y l j).negate))
    ∧ s.Completes c (.vfmul d a b t q rnd) (r (fun l j => mulF t m z (x l j) (y l j)))
    ∧ s.Completes c (.vfma d a b t q rnd) (r (fun l j => fmaF t m z (x l j) (y l j) (w l j)))
    ∧ s.Completes c (.vfms d a b t q rnd) (r (fun l j => fmaF t m z (x l j) (y l j) (w l j).negate))
    ∧ s.Completes c (.vfmin d a b t q) (r (fun l j => minmaxF t false (x l j) (y l j)))
    ∧ s.Completes c (.vfmax d a b t q) (r (fun l j => minmaxF t true (x l j) (y l j)))
    ∧ s.Completes c (.vsf d a f q) (c.TakesV d (c.em q) .f32 (fun l j => sfF f z (elem 32 (c.vl a l) j)))

/-- The number that a finite value stands for. -/
def Spec.val : FV → Rat
  | .fin n m e => (if n then -1 else 1) * (m : Rat) * (2 : Rat) ^ e
  | _ => 0

/-- A value is a number. -/
def Spec.finite : FV → Bool
  | .fin _ _ _ => true
  | _ => false

/-- The term x^k / k! of the series of e^x. -/
def Spec.term (x : Rat) : Nat → Rat
  | 0 => 1
  | k + 1 => Spec.term x k * x / (k + 1 : Nat)

/-- The first `n` terms of the series of e^x, of sin x and of cos x. -/
def Spec.expSum (x : Rat) (n : Nat) : Rat := ((List.range n).map (Spec.term x)).sum
def Spec.sinSum (x : Rat) (n : Nat) : Rat := ((List.range n).map (fun k => (-1) ^ k * Spec.term x (2 * k + 1))).sum
def Spec.cosSum (x : Rat) (n : Nat) : Rat := ((List.range n).map (fun k => (-1) ^ k * Spec.term x (2 * k))).sum

/-- R355, R161: VSF.exp2, .log2, .sin, .cos and .tanh of a number whose exact result is irrational give a number within an
ulp of it, with NX and neither IV nor DZ; powers of two of whole numbers and logarithms of powers of two are exact. The exact
result is caught between powers of two with the argument's numerator and denominator as exponents, or by the partial
sums of its series. Under FTZ a result below the normal numbers becomes a zero of its sign. That the results are rounded
once holds only as far as 400 bits of fraction can tell (log entry 71). -/
def Obligations.FunctionBounds : Prop :=
  ∀ n : Nat, Spec.finite (operandF false .f32 n) = true → Spec.val (operandF false .f32 n) ≠ 0 →
    let x : Rat := Spec.val (operandF false .f32 n)
    let out (f : SfFn) : Nat × Fl := sfF f false n
    let y (f : SfFn) : Rat := Spec.val (decodeF .f32 (out f).1)
    let ulp (f : SfFn) : Rat := (y f).abs * (2 : Rat) ^ (-23 : Int) + (2 : Rat) ^ (-149 : Int)
    let lo (f : SfFn) : Rat := y f - ulp f
    let hi (f : SfFn) : Rat := y f + ulp f
    let is (f : SfFn) : Prop := Spec.finite (decodeF .f32 (out f).1) = true ∧ (out f).1 < 2 ^ 32
      ∧ (out f).2 = { nx := true, uf := (out f).2.uf }
    (x.den ≠ 1 → x < 128 → is .exp2 ∧ max 0 (lo .exp2) ^ x.den ≤ (2 : Rat) ^ x.num
      ∧ (2 : Rat) ^ x.num ≤ hi .exp2 ^ x.den)
    ∧ (128 ≤ x → out .exp2 = (0x7F800000, { ov := true, nx := true }))
    ∧ (∀ k : Int, x = k → k < -126 →
      out .exp2 = if k < -149 then (0, { uf := true, nx := true }) else (2 ^ (k + 149).toNat, {}))
    ∧ (0 < x → (∀ k : Int, x ≠ (2 : Rat) ^ k) → is .log2 ∧ (2 : Rat) ^ (lo .log2).num ≤ x ^ (lo .log2).den
      ∧ x ^ (hi .log2).den ≤ (2 : Rat) ^ (hi .log2).num)
    ∧ (∀ k : Int, x = (2 : Rat) ^ k → Spec.finite (decodeF .f32 (out .log2).1) = true ∧ y .log2 = k ∧ (out .log2).2 = {})
    ∧ is .sin ∧ (∀ m, (y .sin - Spec.sinSum x m).abs ≤ ulp .sin + (Spec.term x (2 * m + 1)).abs)
    ∧ is .cos ∧ (∀ m, (y .cos - Spec.cosSum x m).abs ≤ ulp .cos + (Spec.term x (2 * m)).abs)
    ∧ is .tanh ∧ (y .tanh < 0 ↔ x < 0)
    ∧ ((y .tanh).abs ≤ ulp .tanh ∨ ∃ m, 1 + ((y .tanh).abs - ulp .tanh)
        ≤ Spec.expSum (2 * x.abs) m * (1 - ((y .tanh).abs - ulp .tanh)))
    ∧ (∀ m, Spec.expSum (2 * x.abs) m * (1 - ((y .tanh).abs + ulp .tanh)) ≤ 1 + ((y .tanh).abs + ulp .tanh))
    ∧ ∀ f : SfFn, operandF true .f32 n = operandF false .f32 n → sfF f true n =
      if (out f).1 % 2 ^ 31 < 2 ^ 23 ∧ ((out f).1 % 2 ^ 31 ≠ 0 ∨ (out f).2.nx = true)
      then ((out f).1 / 2 ^ 31 * 2 ^ 31, { uf := true, nx := true }) else out f

/-- R343, R344, R164: of finite operands the exact result, when it is not zero, is rounded once: a sum, a product, a
product with a third term, and a sum of many. -/
def Spec.ExactResults : Prop :=
  ∀ (t : Ty) (m : Nat) (z : Bool) (a b c v : FV) (l : List FV),
    Spec.finite a = true → Spec.finite b = true → Spec.finite c = true → Spec.finite v = true →
    (∀ x ∈ l, Spec.finite x = true) → Spec.val v ≠ 0 →
    let once : Nat × Fl := convertF t m z false 0 v
    (Spec.val v = Spec.val a + Spec.val b → addF t m z a b = once)
    ∧ (Spec.val v = Spec.val a * Spec.val b → mulF t m z a b = once)
    ∧ (Spec.val v = Spec.val a * Spec.val b + Spec.val c → fmaF t m z a b c = once)
    ∧ (Spec.val v = (l.map Spec.val).sum → sumF t m z l = once)

/-- R161, R345: VFMIN and VFMAX give the operand with the lesser or the greater value; −0 stands below +0, and the
infinities below and above every number. -/
def Spec.Extremes : Prop :=
  ∀ (t : Ty) (a b x : FV) (e f : Int),
    let pat (v : FV) : Nat × Fl := ((convertF t 1 false false 0 v).1, {})
    (Spec.finite a = true → Spec.finite b = true → Spec.val a < Spec.val b →
      minmaxF t false a b = pat a ∧ minmaxF t false b a = pat a ∧ minmaxF t true a b = pat b ∧ minmaxF t true b a = pat b)
    ∧ ((t = .f32 ∨ t = .f16 ∨ t = .bf16) →
      (∀ n : Bool, minmaxF t false (.fin n 0 e) (.fin (!n) 0 f) = (Fmt.signBit t, {})
        ∧ minmaxF t true (.fin n 0 e) (.fin (!n) 0 f) = (0, {}))
      ∧ (x.isNan = false → minmaxF t false (.inf true) x = (Fmt.signBit t + Fmt.infBits t, {})
        ∧ minmaxF t false x (.inf true) = (Fmt.signBit t + Fmt.infBits t, {})
        ∧ minmaxF t true (.inf false) x = (Fmt.infBits t, {}) ∧ minmaxF t true x (.inf false) = (Fmt.infBits t, {})
        ∧ minmaxF t false (.inf false) x = pat x ∧ minmaxF t false x (.inf false) = pat x
        ∧ minmaxF t true (.inf true) x = pat x ∧ minmaxF t true x (.inf true) = pat x))

/-- R355: VSF of special inputs and of exact ones: the table of R355, and 2 to a whole power. -/
def Spec.FunctionTable : Prop :=
  ∀ z : Bool,
    let inf (n : Bool) : Nat := if n then 0xFF800000 else 0x7F800000
    let zero (n : Bool) : Nat := if n then 0x80000000 else 0
    (∀ n : Bool, sfF .rcp z (zero n) = (inf n, { dz := true }) ∧ sfF .rcp z (inf n) = (zero n, {})
      ∧ sfF .rsq z (zero n) = (inf n, { dz := true }) ∧ sfF .sqrt z (zero n) = (zero n, {})
      ∧ sfF .log2 z (zero n) = (inf true, { dz := true }) ∧ sfF .exp2 z (zero n) = (0x3F800000, {})
      ∧ sfF .sin z (zero n) = (zero n, {}) ∧ sfF .tanh z (zero n) = (zero n, {})
      ∧ sfF .cos z (zero n) = (0x3F800000, {}) ∧ sfF .sin z (inf n) = (0x7FC00000, { iv := true })
      ∧ sfF .cos z (inf n) = (0x7FC00000, { iv := true })
      ∧ sfF .tanh z (inf n) = (if n then 0xBF800000 else 0x3F800000, {}))
    ∧ sfF .rsq z (inf false) = (0, {}) ∧ sfF .sqrt z (inf false) = (inf false, {})
    ∧ sfF .log2 z (inf false) = (inf false, {}) ∧ sfF .log2 z 0x3F800000 = (0, {})
    ∧ sfF .exp2 z (inf false) = (inf false, {}) ∧ sfF .exp2 z (inf true) = (0, {})
    ∧ (∀ x : Nat, (operandF z .f32 x = .inf true ∨ ∃ k e, 0 < k ∧ operandF z .f32 x = .fin true k e) →
      sfF .rsq z x = (0x7FC00000, { iv := true }) ∧ sfF .sqrt z x = (0x7FC00000, { iv := true })
        ∧ sfF .log2 z x = (0x7FC00000, { iv := true }))
    ∧ (∀ (f : SfFn) (x : Nat), (operandF z .f32 x).isNan = true →
      sfF f z x = (0x7FC00000, { iv := (operandF z .f32 x).sig }))
    ∧ ∀ (x : Nat) (k : Int), Spec.finite (operandF z .f32 x) = true → Spec.val (operandF z .f32 x) = k →
      -126 ≤ k → k ≤ 127 → sfF .exp2 z x = ((k + 127).toNat * 2 ^ 23, {})

/-- Float vector arithmetic: what is computed from which operands, the exact result rounded once, and VSF on special
inputs (R161, R164, R343, R344, R345, R355). How a number is rounded is stated with FloatCorners. -/
def Obligations.VectorFloat : Prop :=
  Spec.FloatInstructions ∧ Spec.ExactResults ∧ Spec.Extremes ∧ Spec.FunctionTable

/-- R337, R151: which of two values that are no NaN is the lesser: numbers by their values, so that −0 equals +0, and the
infinities below and above every number. -/
def Spec.Order : Prop :=
  ∀ (a b : FV) (n k : Bool), Spec.finite a = true → Spec.finite b = true →
    ltF false a b = decide (Spec.val a < Spec.val b) ∧ ltF false (.inf n) a = n ∧ ltF false a (.inf n) = !n
    ∧ ltF false (.inf n) (.inf k) = (n && !k)

/-- R337: VCMP on floats: ordered comparisons are false for a NaN, .ne and .un are true, and a signalling NaN
sets IV in its lane. -/
def Spec.VectorCompareFloats : Prop :=
  ∀ (s : State) (c : Crew) (h : Cohort), s.Issues c h → c.NoStep → c.NoArith →
    ∀ (d a : Nat) (b : VOp) (t : Ty) (e : Nat) (q : Pred), t.isInt = false → e < t.count →
    c.vOk a 1 = true → c.bOk b = true →
    let x (l : Nat) : FV := operandF c.ftz t (elem t.width (c.vl a l) e)
    let y (l : Nat) : FV := operandF c.ftz t (bElem c b t.width l e)
    let nan (l : Nat) : Bool := (x l).isNan || (y l).isNan
    let less (u v : FV) : Bool := ltF false u v
    let r (g : Nat → Bool) (c' : Crew) : Prop :=
      (∀ l < 32, mbit (c'.pr d) l = if d = 0 then true else if mbit (c.em q) l then g l else mbit (c.pr d) l)
        ∧ (∀ l < 32, mbit (c'.nfl 0) l
            = (mbit (c.nfl 0) l || (mbit (c.em q) l && ((x l).sig || (y l).sig))))
        ∧ (∀ k, 0 < k → k < 7 → c'.nfl k = c.nfl k)
        ∧ (∀ k, k ≠ d → c'.pr k = c.pr k) ∧ c'.r.s = c.r.s ∧ c'.r.v = c.r.v ∧ c'.m = c.m ∧ c.SameCtlButFlags c'
    s.Completes c (.vcmpEq d a b t e q) (r (fun l => !nan l && !less (x l) (y l) && !less (y l) (x l)))
    ∧ s.Completes c (.vcmpNe d a b t e q) (r (fun l => nan l || less (x l) (y l) || less (y l) (x l)))
    ∧ s.Completes c (.vcmpLt d a b t e q) (r (fun l => !nan l && less (x l) (y l)))
    ∧ s.Completes c (.vcmpLe d a b t e q) (r (fun l => !nan l && !less (y l) (x l)))
    ∧ s.Completes c (.vcmpUn d a b t e q) (r nan)

/-- VCMP on integers and floats, with the order of the values compared (R24, R151, R337). -/
def Obligations.VectorCompares : Prop := Spec.VectorCompareIntegers ∧ Spec.VectorCompareFloats ∧ Spec.Order

/-- R151, R343, R344: NaN operands, ∞ − ∞ and 0 × ∞ give the canonical NaN, IV exactly for a signalling operand
or an invalid operation; an exact zero sum of opposite signs is +0, or −0 under RDN (3); −0 + −0 is −0. -/
def Spec.FloatSpecials : Prop :=
  ∀ (t : Ty) (m : Nat) (z : Bool) (x y w : FV) (n k : Bool) (e f : Int) (a : Nat),
    ((x.isNan || y.isNan) = true → addF t m z x y = (Fmt.nan t, { iv := x.sig || y.sig })
      ∧ mulF t m z x y = (Fmt.nan t, { iv := x.sig || y.sig })
      ∧ minmaxF t n x y = (Fmt.nan t, { iv := x.sig || y.sig }))
    ∧ addF t m z (.inf n) (.inf (!n)) = (Fmt.nan t, { iv := true })
    ∧ mulF t m z (.inf n) (.fin k 0 e) = (Fmt.nan t, { iv := true })
    ∧ mulF t m z (.fin k 0 e) (.inf n) = (Fmt.nan t, { iv := true })
    ∧ (w.isNan = true → fmaF t m z (.inf n) (.fin k 0 e) w = (Fmt.nan t, { iv := true }))
    ∧ (0 < a → addF t m z (.fin n a e) (.fin (!n) a e) = (if m = 3 then Fmt.signBit t else 0, {}))
    ∧ addF t m z (.fin true 0 e) (.fin true 0 f) = (Fmt.signBit t, {})
    ∧ addF t m z (.fin false 0 e) (.fin false 0 f) = (0, {})
    ∧ addF t m z (.inf n) (.fin k a e) = ((if n then Fmt.signBit t else 0) + Fmt.infBits t, {})

/-- The fields of an arithmetic format (R150): exponent bits, fraction bits and bias. -/
def Spec.fields : Ty → Nat × Nat × Int
  | .f32 => (8, 23, 127)
  | .bf16 => (8, 7, 127)
  | .f16 => (5, 10, 15)
  | .e5m2 => (5, 2, 15)
  | _ => (4, 3, 7)

/-- R150, R151: what a pattern of sign `n`, exponent `x` and fraction `f` stands for. -/
def Spec.Decoding : Prop :=
  ∀ (t : Ty) (n : Bool) (x f : Nat), (t = .f32 ∨ t = .f16 ∨ t = .bf16 ∨ t = .e4m3 ∨ t = .e5m2) →
    let eb := (Spec.fields t).1
    let mb := (Spec.fields t).2.1
    let bias := (Spec.fields t).2.2
    x < 2 ^ eb → f < 2 ^ mb →
    let v := decodeF t ((if n then 2 ^ (eb + mb) else 0) + x * 2 ^ mb + f)
    let is (y : Rat) : Prop := Spec.finite v = true ∧ Spec.val v = (if n then -y else y)
    let top : Prop := if t = .e4m3 then x = 15 ∧ f = 7 else x = 2 ^ eb - 1
    (x = 0 → is ((f : Rat) * (2 : Rat) ^ (1 - bias - mb)))
    ∧ (0 < x → ¬ top → is (((2 ^ mb + f : Nat) : Rat) * (2 : Rat) ^ ((x : Int) - bias - mb)))
    ∧ (top → t ≠ .e4m3 → f = 0 → v = .inf n)
    ∧ (top → f ≠ 0 → v.isNan = true ∧ v.sig = (t != .e4m3 && t != .e5m2 && decide (f < 2 ^ (mb - 1))))

/-- R150, R151, R338: every pattern of a format that is no NaN converts to its own format as itself, by every
mode, with no flag: decoding, rounding and encoding lose nothing. -/
def Spec.RoundTrip : Prop :=
  ∀ (t : Ty) (m r n : Nat), (t = .f32 ∨ t = .f16 ∨ t = .bf16 ∨ t = .e4m3 ∨ t = .e5m2) → n < 2 ^ t.width →
    (decodeF t n).isNan = false → convertF t m false false r (decodeF t n) = (n, {})

/-- What the patterns of the arithmetic formats stand for, and that each converts to itself (R150, R151, R338). -/
def Obligations.FloatRoundTrip : Prop := Spec.Decoding ∧ Spec.RoundTrip

/-- R159: an overflow sets OF and NX and gives what the table states by mode: modes 1 RNE, 2 RZ, 3 RDN, 4 RUP,
5 RNA, 6 SR. -/
def Spec.FloatOverflow : Prop :=
  ∀ (n : Bool) (t : Ty), (t = .f32 ∨ t = .f16 ∨ t = .bf16 ∨ t = .e5m2) →
    let sg := if n then Fmt.signBit t else 0
    let fl : Fl := { ov := true, nx := true }
    overflowF t 1 false n = (sg + Fmt.infBits t, fl) ∧ overflowF t 5 false n = (sg + Fmt.infBits t, fl)
    ∧ overflowF t 2 false n = (sg + Fmt.maxBits t, fl) ∧ overflowF t 6 false n = (sg + Fmt.maxBits t, fl)
    ∧ overflowF t 3 false n = (if n then sg + Fmt.infBits t else Fmt.maxBits t, fl)
    ∧ overflowF t 4 false n = (if n then sg + Fmt.maxBits t else Fmt.infBits t, fl)
    ∧ ∀ m, overflowF t m true n = (sg + Fmt.maxBits t, fl)
      ∧ overflowF .e4m3 m false n = ((if n then 128 else 0) + 0x7E, fl)

/-- Pattern `n` of format `t` is the number `x` rounded by a mode (R157, R158): 1 to the nearest, ties to an even pattern; 2
towards zero; 3 down; 4 up; 5 to the nearest, ties away from zero; 6 by the draw `r` between the neighbours below and
above. The sign of a zero is that of `x`. -/
def Spec.Rounds (t : Ty) (mode r : Nat) (x : Rat) (n : Nat) : Prop :=
  let num (k : Nat) : Prop := k < 2 ^ t.width ∧ Spec.finite (decodeF t k) = true
  let y (k : Nat) : Rat := Spec.val (decodeF t k)
  let far (k : Nat) : Rat := (y k - x).abs
  let below (k : Nat) : Prop := num k ∧ y k ≤ x ∧ ∀ j, num j → y j ≤ x → y j ≤ y k
  let above (k : Nat) : Prop := num k ∧ x ≤ y k ∧ ∀ j, num j → x ≤ y j → y k ≤ y j
  num n ∧ (t ≠ .e2m1s → (2 ^ (t.width - 1) ≤ n ↔ x < 0)) ∧
    match mode with
    | 2 => if 0 ≤ x then below n else above n
    | 3 => below n
    | 4 => above n
    | 5 => ∀ k, num k → far n ≤ far k ∧ (far n = far k → (y k).abs ≤ (y n).abs)
    | 6 => ∀ lo hi, below lo → above hi →
        y n = if (r : Rat) * (y hi - y lo) < (x - y lo) * (2 ^ 24 : Nat) then y hi else y lo
    | _ => ∀ k, num k → far n ≤ far k ∧ (far n = far k → y k = y n ∨ n % 2 = 0)

/-- R157 to R161: a number within the format's range becomes its rounding, with NX exactly when that differs from it and UF
when it is besides below the normal numbers; one at or beyond the next step above the largest overflows. Under FTZ
a result below the normal numbers becomes a zero of its sign. -/
def Spec.Rounding : Prop :=
  ∀ (t : Ty) (m r : Nat) (sat : Bool) (v : FV), (t = .f32 ∨ t = .f16 ∨ t = .bf16 ∨ t = .e4m3 ∨ t = .e5m2) →
    Spec.finite v = true → Spec.val v ≠ 0 → r < 2 ^ 24 →
    let x := Spec.val v
    let y (k : Nat) : Rat := Spec.val (decodeF t k)
    let mb := (Spec.fields t).2.1
    let half := 2 ^ (t.width - 1)
    let out := convertF t m false sat r v
    (x.abs ≤ y (Fmt.maxBits t) → Spec.Rounds t m r x out.1
      ∧ out.2 = { nx := decide (y out.1 ≠ x), uf := out.2.uf } ∧ (out.2.uf = true → out.2.nx = true)
      ∧ (y (2 ^ mb) ≤ x.abs → out.2.uf = false)
      ∧ (x.abs + y 1 / 2 ≤ y (2 ^ mb) → out.2.uf = out.2.nx))
    ∧ (2 * y (Fmt.maxBits t) - y (Fmt.maxBits t - 1) ≤ x.abs → out = overflowF t m sat (decide (x < 0)))
    ∧ convertF t m true sat r v = (if (t = .f32 ∨ t = .f16 ∨ t = .bf16) ∧ out.1 % half < 2 ^ mb
        then (if x < 0 then half else 0, { uf := true, nx := true }) else out)

/-- R355: VSF.rcp, .sqrt and .rsq give the exact value rounded to the nearest, ties to even; a root lies between the
squares of the midpoints around its result. -/
def Spec.FunctionRounding : Prop :=
  ∀ (z : Bool) (n : Nat), let v := operandF z .f32 n
    Spec.finite v = true → Spec.val v ≠ 0 →
    let x := Spec.val v
    let y (k : Nat) : Rat := Spec.val (decodeF .f32 k)
    let lo (k : Nat) : Rat := (y k + y (k - 1)) / 2
    let hi (k : Nat) : Rat := (y k + y (k + 1)) / 2
    let rcp := sfF .rcp false n
    let sq := sfF .sqrt z n
    let rs := sfF .rsq z n
    ((1 / x).abs ≤ y (Fmt.maxBits .f32) → z = false → Spec.Rounds .f32 1 0 (1 / x) rcp.1
      ∧ rcp.2.nx = decide (y rcp.1 * x ≠ 1) ∧ rcp.2.iv = false ∧ rcp.2.dz = false ∧ rcp.2.ov = false)
    ∧ (0 < x → 0 < sq.1 ∧ sq.1 < 0x7F800000 ∧ lo sq.1 * lo sq.1 ≤ x ∧ x ≤ hi sq.1 * hi sq.1
      ∧ sq.2 = { nx := decide (y sq.1 * y sq.1 ≠ x) })
    ∧ (0 < x → 0 < rs.1 ∧ rs.1 < 0x7F800000 ∧ lo rs.1 * lo rs.1 * x ≤ 1 ∧ 1 ≤ hi rs.1 * hi rs.1 * x
      ∧ rs.2 = { nx := decide (y rs.1 * y rs.1 * x ≠ 1) })

/-- NaNs, infinities, zeros and overflow in the arithmetic formats, and how numbers are rounded to them (R151, R157 to
R161, R343, R344, R355). Of this, how SR orders the neighbours is the model's (log entry 13). -/
def Obligations.FloatCorners : Prop :=
  Spec.FloatSpecials ∧ Spec.FloatOverflow ∧ Spec.Rounding ∧ Spec.FunctionRounding

/-- A number rounded to an integer by a mode (R157, R158), as `Spec.Rounds` numbers them. -/
def Spec.whole (mode r : Nat) (x : Rat) : Int :=
  let f := x.floor
  let d := x - f
  if d = 0 then f else match mode with
    | 2 => if x < 0 then f + 1 else f
    | 3 => f
    | 4 => f + 1
    | 5 => if d < 1 / 2 ∨ (d = 1 / 2 ∧ x < 0) then f else f + 1
    | 6 => if (r : Rat) < d * (2 ^ 24 : Nat) then f + 1 else f
    | _ => if d < 1 / 2 ∨ (d = 1 / 2 ∧ f % 2 = 0) then f else f + 1

/-- The number that a code of E2M1S stands for with its block's scale and spare (R152, R153). -/
def Spec.blockValue (code scale spare : Nat) : FV :=
  if scale = 255 then .nan false
  else if code = 8 then (decodeF .e4m3 spare).scale ((scale : Int) - 127)
  else .fin (decide (8 ≤ code)) ([0, 1, 2, 3, 4, 6, 8, 12].getD (code % 8) 0) ((scale : Int) - 128)

/-- R157 to R161, R338: one element `n` of type `src` converted to `dst`; `side` holds the scale and spare of its block
and `r` the draw. An integer clamps with SAT under `sat`, else wraps; a number beyond an integer's range clamps with IV, a
NaN gives 0 with IV. -/
def Spec.convert (dst src : Ty) (mode : Nat) (z sat : Bool) (r side n : Nat) : Nat × Fl :=
  let w := dst.width
  if src.isInt then
    let x := readInt src n
    let y := max (minInt dst) (min (maxInt dst) x)
    if dst.isInt then (if sat then (wrapTo w y, { sat := decide (y ≠ x) }) else (wrapTo w x, {}))
    else convertF dst mode z sat r (.fin (decide (x < 0)) x.natAbs 0)
  else
    let v := if src = .e2m1s then Spec.blockValue n (side % 256) (side / 256 % 256) else operandF z src n
    if dst.isInt then
      match v with
      | .nan _ => (0, { iv := true })
      | .inf neg => (wrapTo w (if neg then minInt dst else maxInt dst), { iv := true })
      | _ =>
        let k := Spec.whole mode r (Spec.val v)
        if k < minInt dst then (wrapTo w (minInt dst), { iv := true })
        else if maxInt dst < k then (wrapTo w (maxInt dst), { iv := true })
        else (wrapTo w k, { nx := decide ((k : Rat) ≠ Spec.val v) })
    else convertF dst mode z sat r v

/-- R338, R339, R154, R158: VCVT by element, zero beyond the source's count; a .e2m1s source reads the companion of its
pair's even lane; a .e2m1s target also writes its companion, 0x7F (scale 1, spare 0) in both lanes of a pair that holds
an active lane; SR advances the counter. -/
def Spec.VectorConvert : Prop :=
  ∀ (s : State) (c : Crew) (h : Cohort), s.Issues c h → c.NoStep → c.NoArith →
    ∀ (d a : Nat) (dst src : Ty) (q : Pred) (rnd : Nat) (sat : Bool),
    c.vOk d (if dst = .e2m1s then 2 else 1) = true → c.vOk a (if src = .e2m1s then 2 else 1) = true →
    let m := c.rmode rnd
    let k : Crew := if m = 6 then { c with g := { c.g with ctr := c.g.ctr + BitVec.ofNat 64 dst.count } } else c
    let em := c.em q
    let v (l j : Nat) : Nat × Fl := if j < src.count then Spec.convert dst src m c.ftz sat
        ((draw c.g.seed (c.g.ctr + BitVec.ofNat 64 j) l).toNat / 2 ^ 40) (c.vl (a + 1) (l / 2 * 2)).toNat
        (elem src.width (c.vl a l) j)
      else (0, {})
    (dst ≠ .e2m1s → s.Completes c (.vcvt d a dst src q rnd sat) (k.TakesV d em dst v))
    ∧ (dst = .e2m1s → s.Completes c (.vcvt d a dst src q rnd sat) (fun c' =>
        (∀ l < 32, mbit em l = true → ∀ j < 16, elem 4 (c'.vl d l) j = (v l j).1 % 16)
        ∧ (∀ l < 32, (mbit em (l / 2 * 2) || mbit em (l / 2 * 2 + 1)) = true → c'.vl (d + 1) l = 0x7F)
        ∧ (∀ l < 32, mbit em l = false → c'.vl d l = c.vl d l)
        ∧ (∀ l < 32, (mbit em (l / 2 * 2) || mbit em (l / 2 * 2 + 1)) = false → c'.vl (d + 1) l = c.vl (d + 1) l)
        ∧ (∀ n l, l < 32 → n ≠ d → n ≠ d + 1 → c'.vl n l = c.vl n l)
        ∧ (∀ i < 7, ∀ l < 32, mbit (c'.nfl i) l
            = (mbit (c.nfl i) l || (mbit em l && (List.range 16).any (fun j => (v l j).2.bit i))))
        ∧ c'.r.s = c.r.s ∧ c'.r.p = c.r.p ∧ c'.m = c.m ∧ k.SameCtlButFlags c'))

/-- R164, R346: element `i` of the unnormalised Sylvester transform of a block of 32, of order 32, or of order 16 on
each half by itself: the terms of its sum, `x m` negated where the place of `i` and that of `m` share an odd number of
ones. -/
def Spec.hadamard (h32 : Bool) (x : Nat → FV) (i : Nat) : List FV :=
  let n := if h32 then 5 else 4
  ((List.range 32).filter (fun m => h32 || m / 16 == i / 16)).map (fun m =>
    if ((List.range n).filter (fun b => bitOf i b && bitOf m b)).length % 2 = 1 then (x m).negate else x m)

/-- R162: the scale code `e` of a block of the values `x`, with its flags. -/
def Spec.ScaleCode (t : Ty) (x : List FV) (e : Nat) (fl : Fl) : Prop :=
  let off : Int := match t with
    | .e2m1s => 2
    | .e4m3 => 8
    | .e5m2 => 15
    | _ => 6
  if x.any (fun v => !Spec.finite v) then e = 255 ∧ fl = { iv := true }
  else if x.all (fun v => Spec.val v == 0) then e = 127 ∧ fl = {}
  else ∃ k : Int, (∃ v ∈ x, (2 : Rat) ^ k ≤ (Spec.val v).abs) ∧ (∀ v ∈ x, (Spec.val v).abs < (2 : Rat) ^ (k + 1))
    ∧ (e : Int) = max 0 (min 254 (k - off + 127)) ∧ fl = { ov := decide (254 < k - off + 127) }

/-- A scaled element in the element format (R162): beyond the largest number it takes that, with NX alone; INT8 clamps to
±127 with SAT. -/
def Spec.quantised (t : Ty) (mode r : Nat) (y : FV) : Nat × Fl :=
  let k := Spec.whole mode r (Spec.val y)
  if t = .s8 then
    if k < -127 then (wrapTo 8 (-127), { sat := true }) else if 127 < k then (127, { sat := true })
    else (wrapTo 8 k, { nx := decide ((k : Rat) ≠ Spec.val y) })
  else ((convertF t mode false true r y).1, { nx := (convertF t mode false true r y).2.nx })

/-- How far the nearest E2M1S code lies from a scaled element (R163). -/
def Spec.codeError (y : FV) : Rat :=
  (Spec.val y - Spec.val (Spec.blockValue (convertF .e2m1s 1 false true 0 y).1 127 0)).abs

/-- R163: the spare of a block: the first element with the largest error, in E4M3; 0 when there is none. -/
def Spec.spareOf (y : List FV) : Nat :=
  match y.find? (fun v => y.all (fun u => decide (Spec.codeError u ≤ Spec.codeError v))) with
  | some v => if Spec.codeError v = 0 then 0 else (convertF .e4m3 1 false true 0 v).1
  | none => 0

/-- The code of an element of a block with elements `ys` (R163): 8 where the spare comes closer. -/
def Spec.codeOf (t : Ty) (mode r : Nat) (ys : List FV) (y : FV) : Nat × Fl :=
  let d := (Spec.val y - Spec.val (decodeF .e4m3 (Spec.spareOf ys))).abs
  if t = .e2m1s ∧ d < Spec.codeError y then (8, { nx := decide (d ≠ 0) })
  else Spec.quantised t mode r y

/-- R162, R163, R351: VQNT takes the elements of vacant lanes as zeros, rotates a block of 32 elements if told to, takes
the scale code `sc` from its largest exponent, and writes each active lane's elements scaled by 2^(127 − sc); sc 255, of
a NaN or an infinity, writes zeros. The group's scale and spare stand in v[D+1] of every lane of a group with an active
lane. -/
def Spec.VectorQuantize : Prop :=
  ∀ (s : State) (c : Crew) (h : Cohort), s.Issues c h → c.NoStep → c.NoArith →
    ∀ (d a had : Nat) (dst src : Ty) (q : Pred) (rnd : Nat),
    dst = .e2m1s ∨ dst = .e4m3 ∨ dst = .e5m2 ∨ dst = .s8 → src = .f32 ∨ src = .bf16 → had < 3 →
    let n := if dst = .e2m1s then 16 else 8
    c.vOk d 2 = true → c.vOk a (n / src.count) = true →
    let m := c.rmode rnd
    let em := c.em q
    let k : Crew := if m = 6 then { c with g := { c.g with ctr := c.g.ctr + BitVec.ofNat 64 n } } else c
    let reg (r l : Nat) : Word := if mbit c.m.om l then c.vl r l else 0
    let inp (b i : Nat) : FV := operandF c.ftz src (elem src.width
      (reg (a + (32 * b + i) % n / src.count) ((32 * b + i) / n)) ((32 * b + i) % n % src.count))
    let x (l : Nat) : List FV := (List.range 32).map (fun i => if had = 0 then inp (l * n / 32) i
      else decodeF .f32 (sumF .f32 1 c.ftz (Spec.hadamard (had == 2) (inp (l * n / 32)) i)).1)
    ∃ (sc : Nat → Nat) (fl : Nat → Fl), (∀ l < 32, Spec.ScaleCode dst (x l) (sc l) (fl l)) ∧
    let y (l : Nat) : List FV := (x l).map (FV.scale (127 - (sc l : Int)))
    let spare (l : Nat) : Nat := if dst = .e2m1s ∧ sc l ≠ 255 then Spec.spareOf (y l) else 0
    let code (l j : Nat) : Nat × Fl := if sc l = 255 then (0, {}) else
      Spec.codeOf dst m ((draw c.g.seed (c.g.ctr + BitVec.ofNat 64 j) l).toNat / 2 ^ 40) (y l)
        ((y l).getD ((l * n + j) % 32) (.fin false 0 0))
    let grp (l : Nat) : Bool := (List.range 32).any (fun i => i / (32 / n) == l / (32 / n) && mbit em i)
    s.Completes c (.vqnt d a dst src had q rnd) (fun c' =>
      (∀ l < 32, mbit em l = true → ∀ j < n, elem dst.width (c'.vl d l) j = (code l j).1 % 2 ^ dst.width)
      ∧ (∀ l < 32, grp l = true → c'.vl (d + 1) l = BitVec.ofNat 64 (sc l + 256 * spare l))
      ∧ (∀ r l, l < 32 → (r ≠ d ∨ mbit em l = false) → (r ≠ d + 1 ∨ grp l = false) → c'.vl r l = c.vl r l)
      ∧ (∀ i < 7, ∀ l < 32, mbit (c'.nfl i) l = (mbit (c.nfl i) l || (mbit em l
          && ((List.range n).any (fun j => (code l j).2.bit i) || (fl l).bit i))))
      ∧ c'.r.s = c.r.s ∧ c'.r.p = c.r.p ∧ c'.m = c.m ∧ k.SameCtlButFlags c')

/-- VCVT and VQNT (R152 to R154, R157 to R164, R338, R339, R351). Of this, which pairs take SR, how SR orders the
neighbours and the H16 transform of the upper half are the model's readings (log entries 12, 13, 97), and that the
Hadamard sums inside VQNT raise no flag and that the spare of a block of scale 0xFF is 0 are its choices (log entries 104,
105). -/
def Obligations.VectorConvertAndQuantize : Prop := Spec.VectorConvert ∧ Spec.VectorQuantize

/-- What a token of VEXPR makes of the stack `st` of FP32 patterns, its top first, with the flags it raises; none for a pop
from an empty stack or a push onto four values (R260, R261). `inp` gives the inputs, and every rounding is RNE. -/
def Spec.token (z : Bool) (inp : Nat → Nat) (st : List Nat) (tok : Tok) : Option (List Nat × Fl) :=
  let v (n : Nat) : FV := operandF z .f32 n
  let push (x : Nat) : Option (List Nat × Fl) := if st.length < 4 then some (x :: st, {}) else none
  let one (f : Nat → Nat × Fl) : Option (List Nat × Fl) := match st with
    | a :: r => some ((f a).1 :: r, (f a).2)
    | [] => none
  let two (f : Nat → Nat → Nat × Fl) : Option (List Nat × Fl) := match st with
    | b :: a :: r => some ((f a b).1 :: r, (f a b).2)
    | _ => none
  match tok with
  | .i0 => push (inp 0)
  | .i1 => push (inp 1)
  | .i2 => push (inp 2)
  | .i3 => push (inp 3)
  | .dup => match st with
    | a :: _ => push a
    | [] => none
  | .add => two (fun a b => addF .f32 1 z (v a) (v b))
  | .sub => two (fun a b => addF .f32 1 z (v a) (v b).negate)
  | .mul => two (fun a b => mulF .f32 1 z (v a) (v b))
  | .min => two (fun a b => minmaxF .f32 false (v a) (v b))
  | .max => two (fun a b => minmaxF .f32 true (v a) (v b))
  | .fma => match st with
    | c :: b :: a :: r => some ((fmaF .f32 1 z (v a) (v b) (v c)).1 :: r, (fmaF .f32 1 z (v a) (v b) (v c)).2)
    | _ => none
  | .neg => one (fun a => (if a < 2 ^ 31 then a + 2 ^ 31 else a - 2 ^ 31, {}))
  | .abs => one (fun a => (a % 2 ^ 31, {}))
  | .exp2 => one (sfF .exp2 z)
  | .rcp => one (sfF .rcp z)
  | .fin => none

/-- The value and the flags that a token list ends with (R261): at the first END, after which only END may stand, or
after the last token, with exactly one value on the stack; none for an illegal list. -/
def Spec.expr (z : Bool) (inp : Nat → Nat) : List Tok → List Nat → Fl → Option (Nat × Fl)
  | [], [v], fl => some (v, fl)
  | .fin :: r, [v], fl => if r.all (· == .fin) then some (v, fl) else none
  | t :: r, st, fl => match Spec.token z inp st t with
    | some (st', f) => Spec.expr z inp r st' (fl.or f)
    | none => none
  | _, _, _ => none

/-- A token list that issue accepts (R261); which lists are does not depend on the inputs. -/
def Spec.legal (toks : List Tok) : Bool := (Spec.expr false (fun _ => 0) toks [] {}).isSome

/-- An input element as FP32 (R260, R342): BF16 is the upper half of it; under FTZ a subnormal is a zero of its sign. -/
def Spec.exprInput (z : Bool) (t : Ty) (x : Nat) : Nat :=
  let y := if t = .bf16 then x * 2 ^ 16 else x
  if z = true ∧ y % 2 ^ 31 < 2 ^ 23 then y / 2 ^ 31 * 2 ^ 31 else y

/-- R260, R261, R342: VEXPR on the lanes of xm evaluates a legal token list in FP32 and rounds its last value once to T; a
register that the list names, or vD, beyond the allocation is ILLEGAL. -/
def Spec.Expressions : Prop :=
  ∀ (s : State) (c : Crew) (h : Cohort), s.Issues c h →
    ∀ (d i0 i1 i2 i3 : Nat) (t : Ty) (toks : List Tok) (sat rnef : Bool), Spec.legal toks = true → t = .f32 ∨ t = .bf16 →
    let reg (k : Nat) : Nat := match k with | 0 => i0 | 1 => i1 | 2 => i2 | _ => i3
    let named (k : Nat) : Bool := toks.contains (match k with | 0 => .i0 | 1 => .i1 | 2 => .i2 | _ => .i3)
    let ok : Prop := c.vOk d 1 = true ∧ ∀ k < 4, named k = true → c.vOk (reg k) 1 = true
    let ev (l j : Nat) : Nat × Fl := (Spec.expr c.ftz
      (fun k => Spec.exprInput c.ftz t (elem t.width (c.vl (reg k) l) j)) toks [] {}).getD (0, {})
    let out (l j : Nat) : Nat × Fl :=
      convertF t (if rnef then 1 else c.rmode 0) c.ftz sat 0 (operandF c.ftz .f32 (ev l j).1)
    (ok → c.NoStep → c.NoArith → s.Completes c (.vexpr d i0 i1 i2 i3 t toks sat rnef)
      (c.TakesV d c.m.xm t (fun l j => ((out l j).1, (ev l j).2.or (out l j).2))))
    ∧ (¬ ok → s.Handles c h → s.Enters c (.vexpr d i0 i1 i2 i3 t toks sat rnef) (s.nodeOf h).handler
      { cause := 1, pc := c.r.pc, resume := c.nextPc } c.SameRegs)

/-- The 4-bit codes of the tokens (R260). -/
def Spec.tokenOf (n : Nat) : Tok :=
  [.fin, .i0, .i1, .i2, .i3, .add, .sub, .mul, .fma, .min, .max, .neg, .abs, .exp2, .rcp, .dup].getD n .fin

/-- R260, R261: three words with the opcode of VEXPR are that instruction, every bit of them a field, when the type code and
the token list are legal, and are refused otherwise. -/
def Spec.ExpressionWords : Prop :=
  ∀ w1 w2 w3 : Nat, w1 < 2 ^ 32 → w1 / 2 ^ 25 = 0x42 → w2 < 2 ^ 32 → w3 < 2 ^ 32 →
    let b (w hi lo : Nat) : Nat := w / 2 ^ lo % 2 ^ (hi + 1 - lo)
    let toks : List Tok := (List.range 12).map (fun j => Spec.tokenOf
      (if j < 4 then b w2 (17 - 4 * j) (14 - 4 * j) else b w3 (31 - 4 * (j - 4)) (28 - 4 * (j - 4))))
    let t : Ty := if b w1 3 0 = 0xA then .f32 else .bf16
    let ok : Prop := (b w1 3 0 = 0xA ∨ b w1 3 0 = 0xC) ∧ Spec.legal toks = true
    (ok → decode [w1, w2, w3] = .ok (.vexpr (b w1 24 18) (b w1 17 11) (b w1 10 4) (b w2 31 25) (b w2 24 18) t toks
      (b w2 1 1 == 1) (b w2 0 0 == 1)) 3)
    ∧ (¬ ok → ∃ e n, decode [w1, w2, w3] = .bad e n)

/-- R23, R164, R346: VHAD writes the signed sums of its block of 32 elements, each rounded once; vacant lanes give zeros. -/
def Spec.Hadamard : Prop :=
  ∀ (s : State) (c : Crew) (h : Cohort), s.Issues c h → c.NoStep → c.NoArith →
    ∀ (d a : Nat) (t : Ty) (h32 : Bool) (q : Pred) (rnd : Nat), c.vOk d 1 = true → c.vOk a 1 = true →
    t = .f32 ∨ t = .bf16 →
    let n := t.count
    let x (k : Nat) : FV := operandF c.ftz t (elem t.width (if mbit c.m.om (k / n) then c.vl a (k / n) else 0) (k % n))
    let block (p : Nat) : List FV := Spec.hadamard h32 (fun k => x (p / 32 * 32 + k)) (p % 32)
    s.Completes c (.vhad d a h32 t q rnd)
      (c.TakesV d (c.em q) t (fun l j => sumF t (c.rmode rnd) c.ftz (block (l * n + j))))

/-- VEXPR, its tokens, its words and the lists it accepts, and VHAD (R23, R164, R260, R261, R342, R346). Of this, the sign of
the upper half under H16 is the model's: the order-16 matrix of R164 on each half (log entry 97). -/
def Obligations.VectorExpressionHadamard : Prop := Spec.Expressions ∧ Spec.ExpressionWords ∧ Spec.Hadamard

/-- R171, R212, R38: where an enabled flag is raised, every active lane's result is written, every flag is ORed in,
and the crew then takes ARITH (11) with the lanes that raised an enabled flag. Flag `k` is enabled by CCR bit 4 + `k`; here
VFADD and VFMUL. -/
def Spec.ArithmeticTraps : Prop :=
  ∀ (s : State) (c : Crew) (h : Cohort), s.Issues c h → s.Handles c h →
    ∀ (d a : Nat) (b : VOp) (t : Ty) (q : Pred) (rnd : Nat) (m : Mask),
    c.vOk d 1 = true → c.vOk a 1 = true → c.bOk b = true → m ≠ 0 →
    let x (l j : Nat) : FV := operandF c.ftz t (elem t.width (c.vl a l) j)
    let y (l j : Nat) : FV := operandF c.ftz t (bElem c b t.width l j)
    let traps (i : Instr) (g : Nat → Nat → Nat × Fl) : Prop :=
      (∀ l < 32, mbit m l = (mbit (c.em q) l && (List.range 6).any (fun k => c.g.ccr.getLsbD (4 + k)
        && (List.range t.count).any (fun j => (g l j).2.bit k)))) →
      s.Enters c i (s.nodeOf h).handler { cause := 11, pc := c.r.pc, lanes := m, resume := c.nextPc } (fun c' =>
        (∀ l < 32, mbit (c.em q) l = true → ∀ j < t.count, elem t.width (c'.vl d l) j = (g l j).1 % 2 ^ t.width)
        ∧ (∀ n l, l < 32 → n ≠ d ∨ mbit (c.em q) l = false → c'.vl n l = c.vl n l)
        ∧ (∀ k < 7, ∀ l < 32, mbit (c'.nfl k) l
            = (mbit (c.nfl k) l || (mbit (c.em q) l && (List.range t.count).any (fun j => (g l j).2.bit k))))
        ∧ c'.r.s = c.r.s ∧ c'.r.p = c.r.p)
    traps (.vfadd d a b t q rnd) (fun l j => addF t (c.rmode rnd) c.ftz (x l j) (y l j))
    ∧ traps (.vfmul d a b t q rnd) (fun l j => mulF t (c.rmode rnd) c.ftz (x l j) (y l j))

/-- R214, R216, R219, R298: a trap with no handler to run, or inside a handler, begins the abort of the cohort: the crew
stands still with its fault registers set and its running siblings are told to stop. When every other crew stands
already, the cohort goes: under REPLAY its records return to the head of their element, none of them standing there yet,
else the instance halts. Stated of BRK. -/
def Spec.Aborts : Prop :=
  ∀ (s : State) (c : Crew) (h : Cohort), s.Issues c h → h.halt = none →
    (s.nodeOf h).handler = 0 ∨ c.g.hnd = true →
    (∀ d, s.crew? h.uid d.idx = some d → d.idx ≠ c.idx → d.g.exited = false → d.g.frozen = false →
      d.g.stopping = false → d.w.kind = .none →
      ∃ t c' d' k, exec .brk s = .next t ∧ t.crew? c.uid c.idx = some c' ∧ c'.g.frozen = true
        ∧ c'.f = { pc := c.r.pc, cause := 12 } ∧ c.SameRegs c' ∧ c'.m = c.m ∧ t.crew? h.uid d.idx = some d'
        ∧ d'.r = d.r ∧ d'.m = d.m ∧ d'.g = { d.g with stopping := true, skid := 0 }
        ∧ t.cohort? h.uid = some { h with halt := some k, ev := .placed } ∧ k.abort = true ∧ k.crew = c.idx
        ∧ k.trap.cause = 12 ∧ k.hnd = c.g.hnd ∧ t.mem = s.mem ∧ t.insts = s.insts)
    ∧ (∀ a, s.inst? h.inst = some a → a.l.serial = h.serial →
      (∀ x ∈ h.recs, ∀ y ∈ (a.queue h.node h.elem).back, y.id ≠ x.id) →
      (∀ d ∈ s.crewsOf h.uid, d.idx = c.idx ∨ d.g.exited = true ∨ d.g.frozen = true) →
      let again : Bool := (a.node h.node).replay && !h.effects && h.recs.all (fun x => decide (x.req < 2))
      ∃ t, exec .brk s = .next t ∧ t.crewsOf h.uid = []
        ∧ (again = false → t.inst? h.inst = none ∧ ⟨a.l.serial, a.l.proc, a.l.qsb, 2⟩ ∈ t.host.past)
        ∧ (again = true → ∃ a', t.inst? h.inst = some a' ∧ (a'.queue h.node h.elem).back
            = h.recs.map (fun x => { x with req := x.req + 1 }) ++ (a.queue h.node h.elem).back))

/-- An enabled flag traps after the result; a trap without a handler aborts the cohort (R38, R171, R212, R214, R216,
R219, R298). Of this, FLANES of ARITH follows R171 (log entry 26). -/
def Obligations.ArithmeticTrapsAndAborts : Prop := Spec.ArithmeticTraps ∧ Spec.Aborts

/-! ## Cross-lane instructions and tiles -/

/-- A float element as an input under FTZ (R161): a value that is flushed is the zero of its sign. -/
def Spec.flushed (z : Bool) (t : Ty) (n : Nat) : Nat :=
  let v := operandF z t n
  if Spec.finite v = true ∧ Spec.val v = 0 then n / 2 ^ (t.width - 1) % 2 * 2 ^ (t.width - 1) else n

/-- One reduction in ascending lane order over the elements `v` (R352, R344, R345): integers exactly, then clamped or
wrapped; floats one sum, rounded, or one minimum or maximum at a time, with every flag raised on the way. The first element stands as it is, but for a NaN, which is produced as the canonical one
with IV for a signalling one (R151). -/
def Spec.reduce (op : RedOp) (t : Ty) (m : Nat) (z sat : Bool) (v : List Nat) : Nat × Fl :=
  match v with
  | [] => (0, {})
  | a :: r =>
    if t.isInt then
      match op with
      | .add => Spec.intElem t sat (readInt t a + (r.map (readInt t)).sum)
      | .min => (wrapTo t.width ((r.map (readInt t)).foldl min (readInt t a)), {})
      | .max => (wrapTo t.width ((r.map (readInt t)).foldl max (readInt t a)), {})
    else
      let v := operandF z t a
      let first : Nat × Fl := if v.isNan then (Fmt.nan t, { iv := v.sig }) else (Spec.flushed z t a, {})
      r.foldl (fun acc x =>
      let u := operandF z t acc.1
      let w := operandF z t (Spec.flushed z t x)
      let y := match op with
        | .add => addF t m z u w
        | .min => minmaxF t false u w
        | .max => minmaxF t true u w
      (y.1, acc.2.or y.2)) first

/-- R151, R344, R345, R352: VRED gives every active lane the reduction over all active lanes, VSCAN the reduction up to and
with itself; R356: VSHFL takes the element that B names; R359: VVOTE counts under s[B][31:0] and xm. Of this, what a single
or first element gives that is a NaN, the canonical one and IV for a signalling one, is the model's reading of R151 over
R352's copy (log entry 106). -/
def Obligations.CrossLane : Prop :=
  ∀ (s : State) (c : Crew) (h : Cohort), s.Issues c h → c.NoStep → c.NoArith →
    ∀ (d a b' p : Nat) (b : VOp) (t : Ty) (q : Pred) (rnd : Nat) (sat : Bool) (op : RedOp),
    c.vOk d 1 = true → c.vOk a 1 = true → c.bOk b = true →
    let em := c.em q
    let col (j n : Nat) : List Nat := ((activeLanes em).take n).map (fun l => elem t.width (c.vl a l) j)
    let red (j n : Nat) : Nat × Fl := Spec.reduce op t (c.rmode rnd) c.ftz sat (col j n)
    let x (l : Nat) : Nat := (c.bl b l).toNat
    let e : Mask := (c.sr b').setWidth 32 &&& c.m.xm
    let n (f : Nat → Bool) : Nat := ((List.range 32).filter (fun l => mbit e l && f l)).length
    s.Completes c (.vred op d a t q rnd sat) (c.TakesV d em t (fun _ j => red j 32))
    ∧ s.Completes c (.vscan op d a t q rnd sat) (c.TakesV d em t (fun l j => red j ((activeLanes em).idxOf l + 1)))
    ∧ s.Completes c (.vshfl d a b t q) (c.TakesV d em t (fun l j =>
        (elem t.width (c.vl a (x l % 32)) ((x l / 32 % 16 + j) % t.count), {})))
    ∧ s.Completes c (.vvote .ballot d p b') (c.TakesS d ((c.pr p &&& e).setWidth 64))
    ∧ s.Completes c (.vvote .any d p b') (c.TakesS d (if n (mbit (c.pr p)) = 0 then 0 else 1))
    ∧ s.Completes c (.vvote .all d p b') (c.TakesS d (if n (mbit (c.pr p)) = n (fun _ => true) then 1 else 0))
    ∧ s.Completes c (.vvote .count d p b') (c.TakesS d (BitVec.ofNat 64 (n (mbit (c.pr p)))))

/-- R173: the draw of a counter value in a lane. -/
def Spec.draw (seed ctr lane : Nat) : Nat :=
  let x := seed.xor ((ctr * 0x9E3779B97F4A7C15 % 2 ^ 64).xor (lane * 0xD1B54A32D192ED03 % 2 ^ 64))
  let x := x.xor (x / 2 ^ 31) * 0xBF58476D1CE4E5B9 % 2 ^ 64
  let x := x.xor (x / 2 ^ 31) * 0x94D049BB133111EB % 2 ^ 64
  let x := x.xor (x / 2 ^ 31) * 0xD6E8FEB86659FD93 % 2 ^ 64
  x.xor (x / 2 ^ 33)

/-- R353, R173, R317: VRNG writes the low bits of the draw of counter c0 + j and advances the counter by the number
of elements, whatever em holds. -/
def Spec.RandomDraws : Prop :=
  ∀ (s : State) (c : Crew) (h : Cohort), s.Issues c h → c.NoStep → ∀ (d : Nat) (t : Ty) (q : Pred),
    c.vOk d 1 = true →
    let k : Crew := { c with g := { c.g with ctr := c.g.ctr + BitVec.ofNat 64 t.count } }
    s.Completes c (.vrng d t q) (k.TakesV d (c.em q) t (fun l j =>
      (Spec.draw c.g.seed.toNat ((c.g.ctr.toNat + j) % 2 ^ 64) l, {})))

/-- R358: candidate `u` stands before `v`: a number before a NaN, the greater score first with −0 equal to +0, else the lower
index. -/
def Spec.Before (u v : Nat × Nat) : Prop :=
  let nan (n : Nat) : Bool := 0x7F800000 < n % 2 ^ 31
  let key (n : Nat) : Int := if n < 2 ^ 31 then (n : Int) else -((n - 2 ^ 31 : Nat) : Int)
  if nan u.2 ≠ nan v.2 then nan v.2 = true
  else if nan u.2 ∨ key u.2 = key v.2 then u.1 < v.1
  else key v.2 < key u.2

/-- R358, R174: VTOPK orders the scores of all active lanes, as FP32, and gives active lane
i < k the i-th score and its index, or the mark of a missing one. VTOPK.g adds to each score the Gumbel value of its draw
and advances the counter; without it the generator is untouched. A lane's flags are IV of its signalling scores and OF and
NX of its additions. -/
def Spec.TopK : Prop :=
  ∀ (s : State) (c : Crew) (h : Cohort), s.Issues c h → c.NoStep → c.NoArith →
    ∀ (d a : Nat) (g : Bool) (k : Nat) (t : Ty) (q : Pred), c.vOk d 1 = true → c.vOk a 1 = true →
    let act := activeLanes (c.em q)
    let v (l j : Nat) : FV := operandF c.ftz t (elem t.width (c.vl a l) j)
    let noise (l j : Nat) : FV :=
      decodeF .f16 (gumbel (Spec.draw c.g.seed.toNat ((c.g.ctr.toNat + j) % 2 ^ 64) l / 2 ^ 54))
    let sum (l j : Nat) : Nat × Fl := addF .f32 1 c.ftz (v l j) (noise l j)
    let score (l j : Nat) : Nat := if g then (sum l j).1 else (convertF .f32 1 false false 0 (v l j)).1
    let raised (l k : Nat) : Bool := (List.range t.count).any (fun j =>
      if k = 0 then (v l j).sig else g && (k == 2 || k == 4) && (sum l j).2.bit k)
    let after : Crew := { c with g := { c.g with ctr := if g then c.g.ctr + BitVec.ofNat 64 t.count else c.g.ctr } }
    ∀ order : List (Nat × Nat),
    order.Perm (act.flatMap (fun l => (List.range t.count).map (fun j => (l * t.count + j, score l j)))) →
    order.Pairwise Spec.Before →
    s.Completes c (.vtopk d a g k t q) (fun c' =>
      (∀ l ∈ act, l < k → c'.vl d l = match order[l]? with
          | some x => BitVec.ofNat 64 (x.2 * 2 ^ 32 + x.1)
          | none => 0x7FC00000FFFFFFFF)
      ∧ (∀ n l, l < 32 → (n ≠ d ∨ l ∉ act ∨ k ≤ l) → c'.vl n l = c.vl n l)
      ∧ (∀ i < 7, ∀ l < 32, mbit (c'.nfl i) l = (mbit (c.nfl i) l || (mbit (c.em q) l && raised l i)))
      ∧ c'.r.s = c.r.s ∧ c'.r.p = c.r.p ∧ c'.m = c.m ∧ after.SameCtlButFlags c')

/-- VRNG and VTOPK, with the first and last entry of the Gumbel table (R173, R174, R317, R353, R358). -/
def Obligations.RandomAndTopK : Prop :=
  Spec.RandomDraws ∧ Spec.TopK ∧ gumbel 0 = 0xC010 ∧ gumbel 1023 = 0x47A0

/-- R331, R332, R167: TRD reads elements of a tile of the crew's own side, row or column first; TTEST reads the LS
flags of 32 elements and the tile status. -/
def Spec.TileReads : Prop :=
  ∀ (s : State) (c : Crew) (h : Cohort), s.Issues c h → c.NoStep → c.NoArith →
    ∀ (d tile b aux : Nat) (col : Bool) (t : Ty) (q : Pred) (rnd : Nat),
    c.vOk d 1 = true → tile < h.sh.tiles →
    let k := 64 * h.side c.idx + tile
    let i := ((c.sr b).toNat + aux) % 32
    let at_ (l j : Nat) : Nat := 1024 * k + (if col then 32 * l + (i + j) % 32 else 32 * ((i + j) % 32) + l)
    let x (l j : Nat) : Nat := (SMap.get 0 h.tl.e (at_ l j)).toNat
    (t = .f32 ∨ t = .s32 → s.Completes c (.trd d col tile b aux t q rnd)
      (c.TakesV d (c.em q) t (fun l j => (x l j, {}))))
    ∧ (t = .f16 ∨ t = .bf16 → s.Completes c (.trd d col tile b aux t q rnd)
      (c.TakesV d (c.em q) t (fun l j => convertF t (c.rmode rnd) c.ftz false 0 (operandF c.ftz .f32 (x l j)))))
    ∧ (∃ g : Nat → Word, (∀ l, ∀ n < 64, (g l).getLsbD n =
          if n < 32 then SMap.get false h.tl.ls (at_ l n)
          else decide (n < 35) && bitOf (SMap.get 0 h.tl.st k % 8) (n - 32))
        ∧ (SMap.get 0 h.tl.st k < 8 → s.Completes c (.ttest d col tile b aux q) (c.TakesLanes d (c.em q) g)))

/-- Pattern `y` is the element `n` of type `t` as a tile holds it (R331): 32-bit elements as they stand, a 16-bit number
with its exact value and sign, an infinity as that of FP32, a NaN as the canonical one. -/
def Spec.Widened (t : Ty) (n y : Nat) : Prop :=
  let sg := if n / 2 ^ 15 % 2 = 1 then 2 ^ 31 else 0
  if t = .f32 ∨ t = .s32 then y = n
  else match decodeF t n with
    | .nan _ => y = 0x7FC00000
    | .inf _ => y = sg + 0x7F800000
    | v => sg ≤ y ∧ y < sg + 2 ^ 31 ∧ Spec.finite (decodeF .f32 y) = true ∧ Spec.val (decodeF .f32 y) = Spec.val v

/-- R331, R167: TWR stores the elements of active lanes, exactly as FP32 for the 16-bit types, clears their LS flags
and the tile's status, and leaves every other element of every tile; a signalling NaN sets IV in its lane. TZERO clears a
whole tile. -/
def Spec.TileWrites : Prop :=
  ∀ (s : State) (c : Crew) (h : Cohort), s.Issues c h → c.NoStep → c.NoArith →
    ∀ (d tile b aux : Nat) (col : Bool) (t : Ty) (q : Pred), c.vOk d 1 = true → tile < h.sh.tiles →
    (t = .f32 ∨ t = .s32 ∨ t = .f16 ∨ t = .bf16) →
    let k := 64 * h.side c.idx + tile
    let i := ((c.sr b).toNat + aux) % 32
    let at_ (l j : Nat) : Nat := 1024 * k + (if col then 32 * l + (i + j) % 32 else 32 * ((i + j) % 32) + l)
    let sig (l : Nat) : Bool := (t == .f16 || t == .bf16)
      && (List.range t.count).any (fun j => (decodeF t (elem t.width (c.vl d l) j)).sig)
    let done (ins : Instr) (iv : Nat → Bool) (P : Tiles → Prop) : Prop := s.CohortOp c h ins (fun c' h' =>
      c.SameRegs c' ∧ c'.m = c.m ∧ c.SameCtlButFlags c'
      ∧ (∀ k < 7, ∀ l < 32, mbit (c'.nfl k) l = (mbit (c.nfl k) l || (k == 0 && iv l)))
      ∧ { h' with tl := h.tl } = h ∧ P h'.tl)
    done (.twr d col tile b aux t q) (fun l => mbit (c.em q) l && sig l) (fun x =>
      (∀ l < 32, mbit (c.em q) l = true → ∀ j < t.count,
        Spec.Widened t (elem t.width (c.vl d l) j) (SMap.get 0 x.e (at_ l j)).toNat
          ∧ SMap.get false x.ls (at_ l j) = false)
      ∧ (∀ n, (∀ l < 32, mbit (c.em q) l = true → ∀ j < t.count, n ≠ at_ l j) →
        SMap.get 0 x.e n = SMap.get 0 h.tl.e n ∧ SMap.get false x.ls n = SMap.get false h.tl.ls n)
      ∧ ∀ n, SMap.get 0 x.st n = if n = k then 0 else SMap.get 0 h.tl.st n)
    ∧ done (.tzero tile) (fun _ => false) (fun x =>
      (∀ n, SMap.get 0 x.e n = if n / 1024 = k then 0 else SMap.get 0 h.tl.e n)
      ∧ (∀ n, SMap.get false x.ls n = if n / 1024 = k then false else SMap.get false h.tl.ls n)
      ∧ ∀ n, SMap.get 0 x.st n = if n = k then 0 else SMap.get 0 h.tl.st n)

/-- TRD, TTEST, TWR and TZERO on the tiles of a core (R167, R331, R332). -/
def Obligations.TileTransfers : Prop := Spec.TileReads ∧ Spec.TileWrites

/-! ## Global memory -/

/-- The parts of one lane's load (R107): its words in ascending order, with where each one lies and goes. -/
def Spec.parts (l : Nat) (va : Word) (n key : Nat) (dst : Nat → Dst) : List Part :=
  (List.range ((n + 7) / 8)).map (fun k =>
    { lane := l, va := va + BitVec.ofNat 64 (8 * k), n := min 8 n, key := key + 8 * k, dst := dst k })

/-- R271, R276, R323, R347, R109: SLD and VLD complete by sending one load whose parts are the words of their
active lanes at their homes; nothing is read from memory yet and no register changes. -/
def Spec.GlobalLoads : Prop :=
  ∀ (s : State) (c : Crew) (h : Cohort), s.Issues c h → c.NoStep → c.w = {} → s.NoLog c →
    ∀ (d a b : Nat) (off : Int) (z : Size) (q : Pred) (scope : Nat) (nt : Bool) (key : Nat → Nat), scope ≤ 4 →
    let sends (i : Instr) (ps : List Part) : Prop := s.Sends c i (fun t => t.mem.stores = s.mem.stores
      ∧ ∃ ld : Load, t.mem.loads = s.mem.loads ++ [ld] ∧ ld.uid = c.uid ∧ ld.idx = c.idx ∧ ld.bound = c.x.acq
        ∧ ld.parts = ps)
    let va : Word := c.sr a + BitVec.ofInt 64 (off * z.bytes)
    let act := activeLanes (c.em q)
    (d + z.regs ≤ 192 → va.toNat % z.bytes = 0 → s.Homes c h .load va z.bytes (key 0) →
      sends (.sld d a off z scope nt) (Spec.parts 0 va z.bytes (key 0) (fun k => .s (d + k))))
    ∧ (c.vOk d z.regs = true → c.vOk a 1 = true →
      (∀ l ∈ act, (laneAddr c a b l).toNat % z.bytes = 0
        ∧ s.Homes c h .load (laneAddr c a b l) z.bytes (key l)) →
      (act ≠ [] → sends (.vld d a b z q scope nt) (act.flatMap (fun l =>
        Spec.parts l (laneAddr c a b l) z.bytes (key l) (fun k => .v (32 * (c.vix d + k) + l)))))
      ∧ (act = [] → s.Completes c (.vld d a b z q scope nt) (fun c' =>
        c.SameRegs c' ∧ c'.m = c.m ∧ c.SameCtl c')))

/-- R271, R276, R323, R347, R106: SST and VST complete by sending one store for each word of their active lanes, with
the low bytes of the register there; no byte of memory changes before the store is performed. -/
def Spec.GlobalStores : Prop :=
  ∀ (s : State) (c : Crew) (h : Cohort), s.Issues c h → c.NoStep → c.w = {} → s.NoLog c →
    ∀ (d a b : Nat) (off : Int) (z : Size) (q : Pred) (scope : Nat) (nt : Bool) (key : Nat → Nat), scope ≤ 4 →
    let sends (i : Instr) (ws : List (Nat × Word × Nat × Nat × Word)) : Prop := s.Sends c i (fun t =>
      t.mem.loads = s.mem.loads ∧ ∃ new : List Store, t.mem.stores = s.mem.stores ++ new
        ∧ new.map (fun e => (e.lane, e.va, e.n, e.key, e.data)) = ws
        ∧ ∀ e ∈ new, e.uid = c.uid ∧ e.idx = c.idx ∧ e.op = none ∧ e.nt = nt ∧ e.l1 = none ∧ e.remote = none)
    let va : Word := c.sr a + BitVec.ofInt 64 (off * z.bytes)
    let act := activeLanes (c.em q)
    let words (l : Nat) (v : Word) (r : Nat → Word) : List (Nat × Word × Nat × Nat × Word) :=
      (List.range ((z.bytes + 7) / 8)).map (fun k =>
        (l, v + BitVec.ofNat 64 (8 * k), min 8 z.bytes, key l + 8 * k, r k))
    (d + z.regs ≤ 192 → va.toNat % z.bytes = 0 → s.Homes c h .store va z.bytes (key 0) →
      sends (.sst d a off z scope nt) (words 0 va (fun k => c.sr (d + k))))
    ∧ (c.vOk d z.regs = true → c.vOk a 1 = true →
      (∀ l ∈ act, (laneAddr c a b l).toNat % z.bytes = 0
        ∧ s.Homes c h .store (laneAddr c a b l) z.bytes (key l)) →
      sends (.vst d a b z q scope nt) (act.flatMap (fun l =>
        words l (laneAddr c a b l) (fun k => c.vl (d + k) l))))

/-- SLD, VLD, SST and VST to homes on this device (R106, R109, R271, R276, R323, R347). -/
def Obligations.GlobalTransfers : Prop := Spec.GlobalLoads ∧ Spec.GlobalStores

/-- R117, R335, R245: VATOM on global memory sends one atomic of 4 or 8 bytes for each active lane, with its operand from
vD, the swap value of .cas from vD + 1, and, unless .noret, vD as the place of the old value. One that sends any is an
effect of its cohort. -/
def Spec.GlobalAtomics : Prop :=
  ∀ (s : State) (c : Crew) (h : Cohort), s.Issues c h → c.NoStep → c.w = {} → s.NoLog c →
    ∀ (op : AtOp) (d a b : Nat) (q : Pred) (scope : Nat) (noret : Bool) (key : Nat → Nat), scope ≤ 4 →
    c.vOk d (if op = .cas then 2 else 1) = true → c.vOk a 1 = true →
    let act := activeLanes (c.em q)
    let sends (n : Nat) (i : Instr) : Prop :=
      (∀ l ∈ act, (laneAddr c a b l).toNat % n = 0 ∧ s.Homes c h .atomic (laneAddr c a b l) n (key l)) →
      s.Sends c i (fun t => t.mem.loads = s.mem.loads
        ∧ t.cohort? h.uid = some { h with effects := h.effects || !act.isEmpty }
        ∧ ∃ new : List Store, t.mem.stores = s.mem.stores ++ new
          ∧ new.map (fun e => (e.lane, e.va, e.n, e.key, e.data, e.swap, e.dst)) = act.map (fun l =>
            (l, laneAddr c a b l, n, key l, lowBytes n (c.vl d l), lowBytes n (c.vl (d + 1) l),
              if noret then .none else .v (32 * c.vix d + l)))
          ∧ ∀ e ∈ new, e.uid = c.uid ∧ e.idx = c.idx ∧ e.op = some op ∧ e.remote = none)
    sends 4 (.vatom32 op d a b q scope noret false) ∧ sends 8 (.vatom64 op d a b q scope noret false)

/-- R104, R347, R210, R244: lane-private loads and stores: offset `o` of a lane is that lane's own byte, whatever address it
has for an engine; a store changes the addressed bytes of the active lanes and no others. Lanes of a load that meet poisoned
data take ECC (15), of class 3, with the lowest one's address in FADDR. -/
def Obligations.LanePrivate : Prop :=
  ∀ (s : State) (c : Crew) (h : Cohort), s.Issues c h → ∀ (d a b : Nat) (z : Size) (q : Pred),
    c.vOk d z.regs = true → c.vOk a 1 = true →
    let o (l : Nat) : Nat := (laneAddr c a b l).toNat
    (∀ l ∈ activeLanes (c.em q), o l % z.bytes = 0 ∧ o l + z.bytes ≤ s.lpSize h) →
    let byte (x : SMap Byte) (l i : Nat) : Byte := SMap.get 0 x (lpKey i l)
    let bad (l : Nat) : Bool := s.lpPoisoned c h (o l) l z.bytes
    (c.NoStep → (∀ l ∈ activeLanes (c.em q), bad l = false) → s.Completes c (.vldLp d a b z q) (c.TakesWords d z.regs (c.em q) (fun l k =>
      BitVec.ofNat 64 (leVal ((List.range (min 8 z.bytes)).map (fun i => byte c.x.lp l (o l + 8 * k + i)))))))
    ∧ (∀ (m : Mask) (lo : Nat) (lc : Word), s.Handles c h → mbit m lo = true → lo < 32 → (∀ l < lo, mbit m l = false) →
      (∀ l < 32, mbit m l = (mbit (c.em q) l && bad l)) → (∀ l < 32, lc.toNat / 4 ^ l % 4 = if mbit m l then 3 else 0) →
      s.Enters c (.vldLp d a b z q) (s.nodeOf h).handler
        { cause := 15, pc := c.r.pc, lanes := m, addr := s.lpAddr c h (o lo) lo, lcause := lc, resume := c.nextPc } (fun c' =>
          c'.r.s = c.r.s ∧ c'.r.p = c.r.p
            ∧ ∀ r l, l < 32 → (mbit (c.em q) l = false ∨ mbit m l = true ∨ r < d ∨ d + z.regs ≤ r) → c'.vl r l = c.vl r l))
    ∧ (c.NoStep → ∃ t c', exec (.vstLp d a b z q) s = .next t ∧ s.Only t c c' ∧ c.Fixed c' ∧ c'.w = {} ∧ c'.r.pc = c.nextPc
      ∧ c.SameRegs c' ∧ c'.m = c.m ∧ c.SameCtl c'
      ∧ ∀ l < 32, ∀ i, byte c'.x.lp l i = if mbit (c.em q) l = true ∧ o l ≤ i ∧ i < o l + z.bytes
          then BitVec.ofNat 8 ((c.vl (d + (i - o l) / 8) l).toNat / 256 ^ ((i - o l) % 8)) else byte c.x.lp l i)

/-! ## Scratchpad -/

/-- R98, R210, R244, R324: SPLD reads and SPST writes the bytes that each active lane addresses, in ascending lane order,
so that the highest lane's byte stays; no other byte and no full/empty bit changes. Lanes of an SPLD that meet poisoned
data take ECC (15), of class 3, with the lowest one's offset in FADDR. -/
def Spec.ScratchpadBytes : Prop :=
  ∀ (s : State) (c : Crew) (h : Cohort), s.Issues c h → c.w.done = 0 → ∀ (d a b : Nat) (z : Size) (q : Pred),
    c.vOk d z.regs = true → c.vOk a 1 = true → c.SpOk h (c.em q) a b z.bytes →
    let o (l : Nat) : Nat := (laneAddr c a b l).toNat
    let n := z.bytes
    (c.NoStep → (∀ l ∈ activeLanes (c.em q), s.spPoisoned h (o l) n = false) → ∃ f : Nat → Nat → Word, (∀ l k, (f l k).toNat
        = ((List.range (min 8 n)).map (fun i => h.sp.byte (o l + 8 * k + i) * 256 ^ i)).sum)
      ∧ s.Completes c (.spld d a b z q) (c.TakesWords d z.regs (c.em q) f))
    ∧ (∀ (m : Mask) (lo : Nat) (lc : Word), s.Handles c h → mbit m lo = true → lo < 32 → (∀ l < lo, mbit m l = false) →
      (∀ l < 32, mbit m l = (mbit (c.em q) l && s.spPoisoned h (o l) n)) →
      (∀ l < 32, lc.toNat / 4 ^ l % 4 = if mbit m l then 3 else 0) →
      s.Enters c (.spld d a b z q) (s.nodeOf h).handler
        { cause := 15, pc := c.r.pc, lanes := m, addr := BitVec.ofNat 64 (o lo), lcause := lc, resume := c.nextPc } (fun c' =>
          c'.r.s = c.r.s ∧ c'.r.p = c.r.p
            ∧ ∀ r l, l < 32 → (mbit (c.em q) l = false ∨ mbit m l = true ∨ r < d ∨ d + z.regs ≤ r) → c'.vl r l = c.vl r l))
    ∧ (c.NoStep → s.CohortOp c h (.spst d a b z q) (fun c' h' => c.SameRegs c' ∧ c'.m = c.m ∧ c.SameCtl c'
      ∧ { h' with sp := h.sp } = h ∧ h'.sp.full = h.sp.full
      ∧ ∀ x, h'.sp.byte x
          = match ((activeLanes (c.em q)).filter (fun l => o l ≤ x ∧ x < o l + n)).getLast? with
            | some l => (c.vl (d + (x - o l) / 8) l).toNat / 256 ^ ((x - o l) % 8) % 256
            | none => h.sp.byte x))

/-- R99: SPLD.st reads the full/empty bits, SPSET sets them; no word changes. -/
def Spec.ScratchpadMarks : Prop :=
  ∀ (s : State) (c : Crew) (h : Cohort), s.Issues c h → c.NoStep → c.w.done = 0 → ∀ (d a b : Nat) (f : Bool) (q : Pred),
    c.vOk a 1 = true → c.SpOk h (c.em q) a b 8 →
    let o (l : Nat) : Nat := (laneAddr c a b l).toNat
    (c.vOk d 1 = true → s.Completes c (.spldSt d a b q)
      (c.TakesLanes d (c.em q) (fun l => if SMap.get false h.sp.full (o l / 8) then 1 else 0)))
    ∧ s.CohortOp c h (.spset f a b q) (fun c' h' => c.SameRegs c' ∧ c'.m = c.m ∧ c.SameCtl c'
      ∧ { h' with sp := h.sp } = h ∧ h'.sp.w = h.sp.w
      ∧ ∀ k, SMap.get false h'.sp.full k
          = if (activeLanes (c.em q)).any (fun l => o l / 8 == k) then f else SMap.get false h.sp.full k)

/-- SPLD, SPST and SPSET on the scratchpad (R98, R99, R324). -/
def Obligations.ScratchpadWords : Prop := Spec.ScratchpadBytes ∧ Spec.ScratchpadMarks

/-- R99, R100, R325: SPLDS takes full words and leaves them empty, SPSTF fills empty words, when no other crew waits
for them and the lanes name different words; a lane whose word is not ready makes the crew wait there. -/
def Spec.FullEmptyTransfers : Prop :=
  ∀ (s : State) (c : Crew) (h : Cohort), s.Issues c h → c.NoStep → c.w = {} → ∀ (d a b : Nat) (q : Pred),
    c.vOk d 1 = true → c.vOk a 1 = true → c.SpOk h (c.em q) a b 8 →
    let o (l : Nat) : Nat := (laneAddr c a b l).toNat
    let act := activeLanes (c.em q)
    let full (l : Nat) : Bool := SMap.get false h.sp.full (o l / 8)
    let free (take : Bool) : Prop := ∀ l ∈ act, s.spEarlier c (o l) take = false
    (∀ l ∈ act, ∀ l' ∈ act, o l = o l' → l = l') →
    (free true → (∀ l ∈ act, full l = true ∧ s.spPoisoned h (o l) 8 = false) → s.CohortOp c h (.splds d a b q) (fun c' h' =>
      c.TakesLanes d (c.em q) (fun l => SMap.get 0 h.sp.w (o l / 8)) c' ∧ { h' with sp := h.sp } = h
        ∧ h'.sp.w = h.sp.w
        ∧ ∀ k, SMap.get false h'.sp.full k = (SMap.get false h.sp.full k && !act.any (fun l => o l / 8 == k))))
    ∧ (free false → (∀ l ∈ act, full l = false) → s.CohortOp c h (.spstf d a b q) (fun c' h' =>
      c.SameRegs c' ∧ c'.m = c.m ∧ { h' with sp := h.sp } = h
        ∧ (∀ k, SMap.get false h'.sp.full k = (SMap.get false h.sp.full k || act.any (fun l => o l / 8 == k)))
        ∧ (∀ l ∈ act, SMap.get 0 h'.sp.w (o l / 8) = c.vl d l)
        ∧ ∀ k, (∀ l ∈ act, o l / 8 ≠ k) → SMap.get 0 h'.sp.w k = SMap.get 0 h.sp.w k))
    ∧ (∀ l r, act = l :: r → (full l = false → s.Waits c (.splds d a b q) (.sp (o l) true))
      ∧ (full l = true → s.Waits c (.spstf d a b q) (.sp (o l) false)))

/-- R335, R101: VATOM.sp acts on the scratchpad lane by lane in ascending order; each lane reads what the lanes before
it left, and vD takes the old value unless .noret. -/
def Spec.ScratchpadAtomics : Prop :=
  ∀ (s : State) (c : Crew) (h : Cohort), s.Issues c h → c.NoStep → c.w.done = 0 →
    ∀ (op : AtOp) (d a b : Nat) (q : Pred) (scope : Nat) (noret : Bool), scope ≤ 4 →
    c.vOk d (if op = .cas then 2 else 1) = true → c.vOk a 1 = true →
    let o (l : Nat) : Nat := (laneAddr c a b l).toNat
    let run (n : Nat) (ls : List Nat) : Cohort := ls.foldl (fun x l =>
      x.spWrite (o l) n (atomNew op n (x.spRead (o l) n) (c.vl d l) (c.vl (d + 1) l))) h
    let old (n l : Nat) : Word := (run n ((activeLanes (c.em q)).filter (fun k => k < l))).spRead (o l) n
    let ok (n : Nat) (i : Instr) : Prop := c.SpOk h (c.em q) a b n →
      (∀ l ∈ activeLanes (c.em q), s.spPoisoned h (o l) n = false) → s.CohortOp c h i (fun c' h' =>
      h' = { run n (activeLanes (c.em q)) with effects := h.effects || !(activeLanes (c.em q)).isEmpty }
      ∧ (if noret then c.SameRegs c' else c.TakesWords d 1 (c.em q) (fun l _ => old n l) c') ∧ c'.m = c.m)
    ok 4 (.vatom32 op d a b q scope noret true) ∧ ok 8 (.vatom64 op d a b q scope noret true)

/-- SPLDS, SPLD.ST, SPST.F and VATOM.sp (R99, R100, R101, R325, R335). -/
def Obligations.ScratchpadSynchronised : Prop := Spec.FullEmptyTransfers ∧ Spec.ScratchpadAtomics

/-! ## Sharded access, waiting and ordering -/

/-- A shard descriptor's words `w` are well formed (R142); `dim`, `ext` and `grid` are its fields by dimension. -/
def Spec.DescriptorOk (w : Nat → Word) (dim ext grid : Nat → Nat) : Prop :=
  let x (k : Nat) : Nat := (w k).toNat
  let rank := x 0 % 8
  x 0 / 2 ^ 13 = 0 ∧ x 0 / 2 ^ 10 % 4 = 0 ∧ x 0 / 2 ^ 3 % 32 = 0 ∧ 1 ≤ rank ∧ rank ≤ 4
    ∧ (∀ d < 4, rank ≤ d → dim d = 1 ∧ ext d = 1 ∧ grid d = 1)
    ∧ (∀ d < 4, 1 ≤ ext d ∧ grid d = (dim d + ext d - 1) / ext d)
    ∧ x 7 < 2 ^ 32 ∧ x 7 = grid 0 * grid 1 * grid 2 * grid 3

/-- R142 to R146, R328: TLD and TST read the eight words of the descriptor and the map entry of each lane, and send
one access for each lane within the tensor, at the map entry of its shard plus its place within the shard; with OOB = 0 a
TLD gives a lane outside it zero and a TST stores nothing there. Where every active lane is refused by the descriptor, the
instruction takes ACCESS with the descriptor's address. Here every word is at hand, every lane is aligned and every home is
on this device. -/
def Obligations.ShardedAccess : Prop :=
  ∀ (s : State) (c : Crew) (h : Cohort), s.Issues c h → c.w = {} → s.NoLog c →
    (s.mmu.marl.filter (fun e => e.1 == dieOf (h.coreOf c.idx))).length ≤ 255 →
    (∀ r ∈ s.mem.remote, r.who ≠ .marl c.uid c.idx) →
    ∀ (d a b t : Nat) (q : Pred) (nt : Bool) (w e : Nat → Word) (key : Nat → Nat),
    c.vOk a 2 = true → c.vOk d 1 = true → activeLanes (c.em q) ≠ [] → t ≤ 3 →
    let act := activeLanes (c.em q)
    let tensor := (c.sr b).toNat % 4096
    let dva : Word := (match s.ctx? h.ctx with | some x => x.shard | none => 0) + BitVec.ofNat 64 (64 * tensor)
    s.marlEntry c h tensor dva 8 = .words ((List.range 8).map w) →
    let fld (k i : Nat) : Nat := (w (k + i / 2)).toNat / 2 ^ (32 * (i % 2)) % 2 ^ 32
    let dim := fld 2
    let ext := fld 4
    let grid (i : Nat) : Nat := (w 6).toNat / 2 ^ (16 * i) % 2 ^ 16
    let oob := (w 0).getLsbD 12
    let x (l i : Nat) : Nat := (c.vl (a + i / 2) l).toNat / 2 ^ (32 * (i % 2)) % 2 ^ 32
    let inside (l : Nat) : Prop := ∀ i < 4, x l i < dim i
    let fits : Prop := Spec.DescriptorOk w dim ext grid ∧ (w 0).toNat / 2 ^ 8 % 4 = t
    let sh (l i : Nat) : Nat := x l i / ext i
    let at_ (l i : Nat) : Nat := x l i % ext i
    let map (l : Nat) : Word := w 1
      + BitVec.ofNat 64 (8 * (((sh l 0 * grid 1 + sh l 1) * grid 2 + sh l 2) * grid 3 + sh l 3))
    let va (l : Nat) : Word := e l
      + BitVec.ofNat 64 ((((at_ l 0 * ext 1 + at_ l 1) * ext 2 + at_ l 2) * ext 3 + at_ l 3) * 2 ^ t)
    let reach (acc : Acc) : Prop := fits ∧ ∀ l ∈ act, (¬ inside l → oob = false) ∧ (inside l →
      s.marlEntry c h tensor (map l) 1 = .words [e l]
        ∧ (va l).toNat % 2 ^ t = 0 ∧ s.Homes c h acc (va l) (2 ^ t) (key l))
    ∀ go : List Nat, (∀ l, l ∈ go ↔ l ∈ act ∧ inside l) → go.Pairwise (· < ·) →
    (c.NoStep → reach .load → ∃ u c', exec (.tld d a b t q nt) s = .next u ∧ u.crew? c.uid c.idx = some c' ∧ c'.w = {}
      ∧ c'.r.pc = c.nextPc ∧ u.mem.mem = s.mem.mem ∧ u.mem.stores = s.mem.stores ∧ u.insts = s.insts
      ∧ c.TakesLanes d (c.em q) (fun l => if l ∈ go then c.vl d l else 0) c'
      ∧ (go = [] → u.mem.loads = s.mem.loads)
      ∧ (go ≠ [] → ∃ ld : Load, u.mem.loads = s.mem.loads ++ [ld] ∧ ld.tensor = some tensor ∧ ld.uid = c.uid
        ∧ ld.idx = c.idx ∧ ld.bound = c.x.acq ∧ ld.parts = go.map (fun l =>
          { lane := l, va := va l, n := 2 ^ t, key := key l, dst := .v (32 * c.vix d + l) })))
    ∧ (c.NoStep → reach .store → ∃ u c', exec (.tst d a b t q nt) s = .next u ∧ u.crew? c.uid c.idx = some c' ∧ c'.w = {}
      ∧ c'.r.pc = c.nextPc ∧ u.mem.mem = s.mem.mem ∧ u.mem.loads = s.mem.loads ∧ u.insts = s.insts
      ∧ c.SameRegs c' ∧ c'.m = c.m ∧ c.SameCtl c'
      ∧ ∃ new : List Store, u.mem.stores = s.mem.stores ++ new
        ∧ new.map (fun x => (x.lane, x.va, x.n, x.key, x.data, x.tensor, x.op)) = go.map (fun l =>
          (l, va l, 2 ^ t, key l, lowBytes (2 ^ t) (c.vl d l), some tensor, none)))
    ∧ ∀ lc : Word, s.Handles c h → (fits → ∀ l ∈ act, oob = true ∧ ¬ inside l) →
      (∀ l < 32, lc.toNat / 4 ^ l % 4 = if mbit (c.em q) l then 2 else 0) →
      let trap : Trap := { cause := 4, pc := c.r.pc, lanes := c.em q, addr := dva, lcause := lc, resume := c.nextPc }
      s.Enters c (.tld d a b t q nt) (s.nodeOf h).handler trap c.SameRegs
        ∧ s.Enters c (.tst d a b t q nt) (s.nodeOf h).handler trap c.SameRegs

/-- R360, R111: a WAITA whose word meets its condition writes it to s[D] and acquires at device scope; one whose word
does not waits. WAITA.sp does the same on a scratchpad word, with no acquire and no change to the full/empty bit. -/
def Obligations.WaitForWord : Prop :=
  ∀ (s : State) (c : Crew) (h : Cohort), s.Issues c h → c.NoStep → c.w = {} → s.NoLog c →
    ∀ (k : WCmp) (d a b key : Nat),
    let va := c.sr a
    let holds (v : Word) : Prop := match k with
      | .eq => v = c.sr b
      | .ne => v ≠ c.sr b
      | .gen => (c.sr b).toNat ≤ v.toNat
      | .ltn => v.toNat < (c.sr b).toNat
    let free : Prop := (∀ e ∈ s.mem.stores, ((e.uid = c.uid ∧ e.idx = c.idx) ∨ e.id ∈ c.x.musts) →
        e.va.toNat / 8 ≠ va.toNat / 8)
      ∧ (∀ l ∈ s.mem.loads, l.uid ≠ c.uid ∨ l.idx ≠ c.idx) ∧ ∀ r ∈ s.mem.remote, r.who ≠ .waita c.uid c.idx c.g.hnd
    let v := s.readKey key 8
    let spv : Word := SMap.get 0 h.sp.w (va.toNat / 8)
    (va.toNat % 8 = 0 → s.Homes c h .load va 8 key → free →
      (holds v → ∃ t c', exec (.waita k d a b) s = .next t ∧ s.Only t c c' ∧ c.Fixed c' ∧ c'.w = {}
        ∧ c'.r.pc = c.nextPc ∧ c.TakesS d v c' ∧ c'.x.acq = s.fresh.stamp ∧ c'.x.floors = [] ∧ c'.x.lp = c.x.lp)
      ∧ (¬ holds v → s.Waits c (.waita k d a b) (.waita k va (c.sr b))))
    ∧ (va.toNat % 8 = 0 → va.toNat + 8 ≤ 1024 * h.sh.kib → s.spPoisoned h va.toNat 8 = false →
      (holds spv → s.Completes c (.waitaSp k d a b) (c.TakesS d spv))
      ∧ (¬ holds spv → s.Waits c (.waitaSp k d a b) (.waitaSp k va.toNat (c.sr b))))

/-- R110 to R116: PHASE releases and then acquires, PHASE.REL only releases, PHASE.ACQ only acquires; scope 0 is device
scope (3), and crew scope (1) acquires nothing. An acquire moves the crew's view to the present instant. DRAIN completes
when no non-temporal store of the crew is on its way. -/
def Spec.PhaseAndDrain : Prop :=
  ∀ (s : State) (c : Crew) (h : Cohort), s.Issues c h → c.NoStep → c.fail = none → ∀ scope : Nat,
    let sc := if scope = 0 then 3 else scope
    let same (c' : Crew) : Prop := c.SameRegs c' ∧ c'.m = c.m ∧ c.SameCtl c'
    let acquires (i : Instr) : Prop := ∃ t c', exec i s = .next t ∧ s.Only t c c' ∧ c.Fixed c' ∧ c'.w = {}
      ∧ c'.r.pc = c.nextPc ∧ same c' ∧ c'.x.lp = c.x.lp
      ∧ (sc ≠ 1 → c'.x.acq = s.fresh.stamp ∧ c'.x.floors = [])
      ∧ (sc = 1 → c'.x.acq = c.x.acq ∧ c'.x.floors = c.x.floors)
    (s.release c h sc = .done → acquires (.phase scope) ∧ s.Completes c (.phaseRel scope) same)
    ∧ ((∀ l ∈ s.mem.loads, l.uid ≠ c.uid ∨ l.idx ≠ c.idx) → acquires (.phaseAcq scope))
    ∧ ((∀ e ∈ s.mem.log, e.nt = true → e.uid ≠ c.uid ∨ e.idx ≠ c.idx) →
      (∀ e ∈ s.mem.stores, e.nt = true → e.uid ≠ c.uid ∨ e.idx ≠ c.idx) → s.Completes c .drain same)

/-- R110, R113, R115: a release of device scope waits while an ordinary store or a load of the crew is on its way, and
does not wait for a non-temporal store; DRAIN waits for that one. The unit has no effect while it waits. -/
def Spec.ReleaseWaits : Prop :=
  ∀ (s : State) (c : Crew) (h : Cohort), s.Issues c h → c.NoStep → c.fail = none → s.NoLog c →
    let stays (i : Instr) : Prop := ∃ t c', exec i s = .next t ∧ s.Only t c c' ∧ c'.r = c.r ∧ c'.m = c.m ∧ c'.g = c.g
      ∧ c'.x = c.x ∧ c'.w.kind = .none
    let mine (u i : Nat) : Prop := u = c.uid ∧ i = c.idx
    ((∃ e ∈ s.mem.stores, mine e.uid e.idx ∧ e.nt = false ∧ e.remote = none) →
      stays (.phase 3) ∧ stays (.phaseRel 3) ∧ (c.g.hnd = false → stays .exit))
    ∧ ((∃ l ∈ s.mem.loads, mine l.uid l.idx) → stays (.phaseRel 3))
    ∧ ((∃ e ∈ s.mem.stores, mine e.uid e.idx ∧ e.nt = true) → stays .drain)
    ∧ ((∀ l ∈ s.mem.loads, ¬ mine l.uid l.idx) → (∀ e ∈ s.mem.stores, mine e.uid e.idx → e.nt = true) →
      s.Completes c (.phaseRel 3) (fun c' => c.SameRegs c' ∧ c'.m = c.m ∧ c.SameCtl c'))

/-- PHASE and DRAIN, at once and when stores are on their way (R110, R111, R113, R115, R116). Of this, DRAIN's wait for
the side log is the model's (log entry 81). -/
def Obligations.PhaseAndRelease : Prop := Spec.PhaseAndDrain ∧ Spec.ReleaseWaits

/-- R106, R117: a store that is performed at its home writes its bytes there and no other byte of memory, and leaves the
memory system; an atomic writes what its operation makes of the value before it, which its register takes. -/
def Spec.StorePerformed : Prop :=
  ∀ (s : State) (e : Store), s.mem.stores.find? (fun x => x.id == e.id) = some e → e.remote = none →
    s.storeBehind e = false → s.l1Behind e = false →
    let writes (v : Word) : Prop := ∃ t, exec (.storePerformed e.id false) s = .next t
      ∧ (∀ k, t.byteAt k = if e.key ≤ k ∧ k < e.key + e.n then BitVec.ofNat 8 (v.toNat / 256 ^ (k - e.key))
          else s.byteAt k)
      ∧ t.mem.stores = s.mem.stores.filter (fun x => x.id != e.id) ∧ t.mem.loads = s.mem.loads
      ∧ t.insts.length = s.insts.length
    (e.op = none → writes e.data)
    ∧ (∀ op, e.op = some op →
      let old := s.readKey e.key e.n
      writes (atomNew op e.n old e.data e.swap)
      ∧ ∀ c k, s.crew? e.uid e.idx = some c → c.g.exited = false → e.dst = .v k → k < 32 * c.size →
        ∃ t c', exec (.storePerformed e.id false) s = .next t ∧ t.crew? e.uid e.idx = some c'
          ∧ SMap.get 0 c'.r.v k = old ∧ ∀ j, j ≠ k → SMap.get 0 c'.r.v j = SMap.get 0 c.r.v j)

/-- R335: what each operation of VATOM leaves at a location of `n` = 4 or 8 bytes holding `m`, from operand `a` and swap
value `b`: wrapped sums, signed and unsigned extremes, logic, exchange, compare and swap; .fadd, of 32 bits, the FP32 sum
rounded to the nearest with no FTZ. -/
def Spec.AtomicOperations : Prop :=
  ∀ (n : Nat) (m a b : Word), (n = 4 ∨ n = 8) →
    let lo (x : Word) : Nat := x.toNat % 2 ^ (8 * n)
    let sg (x : Word) : Int := toSigned (8 * n) (lo x)
    let r (op : AtOp) : Nat := (atomNew op n m a b).toNat
    r .add = (lo m + lo a) % 2 ^ (8 * n)
    ∧ r .min = (if sg m ≤ sg a then lo m else lo a) ∧ r .max = (if sg a ≤ sg m then lo m else lo a)
    ∧ r .minu = min (lo m) (lo a) ∧ r .maxu = max (lo m) (lo a)
    ∧ r .and = lo m &&& lo a ∧ r .or = lo m ||| lo a ∧ r .xor = lo m ^^^ lo a
    ∧ r .xchg = lo a ∧ r .cas = (if lo m = lo a then lo b else lo m)
    ∧ (n = 4 → r .fadd = (addF .f32 1 false (decodeF .f32 (lo m)) (decodeF .f32 (lo a))).1 % 2 ^ 32)

/-- VATOM to a home on this device, and what each operation computes (R117, R335). -/
def Obligations.GlobalAtomicOperations : Prop := Spec.AtomicOperations ∧ Spec.GlobalAtomics

/-- R107, R109, R276: a load whose parts lie here returns each part from an instant that the memory model allows: the
destination takes those bytes as the home held them at that instant, no byte of memory changes, and the load is
over; parts of one home word (R125) name one instant. Stated for a crew that has not exited, and a part whose register no
other part of the load names. -/
def Spec.LoadReturns : Prop :=
  ∀ (s : State) (l : Load) (c : Crew) (h : Cohort) (stamps : List Nat), s.load? l.id = some l →
    s.crew? l.uid l.idx = some c → c.g.exited = false → s.cohort? l.uid = some h → l.parts ≠ [] → stamps.length = l.parts.length →
    (∀ p ∈ l.parts, p.remote = none) →
    (∀ z ∈ l.parts.zip stamps, z.2 % 4 = 0 ∧ s.readAllowed c l h z.1 z.2 = true) →
    (∀ z ∈ l.parts.zip stamps, ∀ y ∈ l.parts.zip stamps, y.1.key = z.1.key → y.2 = z.2) →
    ∃ t c', exec (.loadReturn l.id stamps) s = .next t ∧ t.mem.mem = s.mem.mem ∧ t.mem.stores = s.mem.stores
      ∧ t.load? l.id = none ∧ t.crew? l.uid l.idx = some c' ∧ c'.r.pc = c.r.pc ∧ c'.m = c.m ∧ c'.g = c.g
      ∧ ∀ z ∈ l.parts.zip stamps, (∀ p ∈ l.parts, p ≠ z.1 → p.dst ≠ z.1.dst) →
        let v := lowBytes z.1.n (s.readWas (z.2 / 4) z.1.key z.1.n)
        (∀ k, z.1.dst = .v k → k < 32 * c.size → SMap.get 0 c'.r.v k = v)
          ∧ ∀ k, z.1.dst = .s k → k ≠ 0 → c'.sr k = v

/-- R108, R109: what the memory model forbids. A load does not return from an instant before its crew's acquire, nor
one after the present, nor from the home while an earlier store of its own crew to a shared byte is not performed;
and a store is not performed while an earlier access of its crew to a shared byte is on its way. -/
def Spec.CoherenceForbids : Prop :=
  (∀ (s : State) (l : Load) (p : Part) (stamp : Nat), s.load? l.id = some l → l.parts = [p] → p.remote = none →
    (stamp < l.bound ∨ s.fresh.stamp < stamp
      ∨ ∃ e ∈ s.mem.stores, e.uid = l.uid ∧ e.idx = l.idx ∧ e.id < l.id ∧ shares e.va e.n p.va p.n = true) →
    exec (.loadReturn l.id [4 * stamp]) s = .next s)
  ∧ ∀ (s : State) (e : Store), s.mem.stores.find? (fun x => x.id == e.id) = some e →
    ((∃ x ∈ s.mem.stores, x.uid = e.uid ∧ x.idx = e.idx ∧ x.id < e.id ∧ shares x.va x.n e.va e.n = true)
      ∨ ∃ x ∈ s.mem.loads, x.uid = e.uid ∧ x.idx = e.idx ∧ x.id < e.id
        ∧ ∃ p ∈ x.parts, shares p.va p.n e.va e.n = true) →
    exec (.storePerformed e.id false) s = .next s

/-- What the arrival of a store and the return of a load do, and what coherence forbids (R106, R107, R108, R109, R117,
R276). Of this, the choice of an instant is the event's argument (log entry 69). -/
def Obligations.MemoryEvents : Prop := Spec.StorePerformed ∧ Spec.LoadReturns ∧ Spec.CoherenceForbids

/-! ## Records, barriers and counters -/

/-- R52, R53, R54, R57, R73, R304: EMIT sends one record for each active lane in ascending order, EMIT.S one record whatever
em holds, once the checks of R53 pass and the release is done; where nothing has blocked, a turn of the crew sends the
next record, and the one that sends the last completes the unit. A local record, of the core on which the crew then stands,
takes its place in its element's queue, which changes memory only where that place lies in the Silt ring; one for another
device joins the die's outbound area. A record with no room waits at a blocking point. -/
def Spec.Emits : Prop :=
  ∀ (s : State) (c : Crew) (h : Cohort) (i : Inst), s.Issues c h → c.NoStep → c.fail = none →
    s.inst? h.inst = some i → ∀ (d a n b' : Nat) (b : VOp) (q : Pred),
    let core := h.coreOf c.idx
    let tgt := (c.sr d).toNat % 4096
    let dev := (c.sr d).toNat / 2 ^ 16 % 2 ^ 10
    let remote := bitOf (c.sr d).toNat 31
    let depth := h.recDepth + (if !remote && i.backEmit h.node tgt then 1 else 0)
    let rec_ (e : Nat) (pay : List Word) : Record :=
      { node := tgt, aidx := e, depth := depth, npay := n, srcdev := s.devid, srccore := core
        remote := false, seq := 0, pay := pay }
    let place : Nat := if remote then dev else 1024
    let lanes_ : List (Nat × Nat × Record) := (activeLanes (c.em q)).map (fun l =>
      (l, place, rec_ ((c.bl b l).toNat % 2 ^ 16) ((List.range n).map (fun j => c.vl (a + j) l))))
    let one : List (Nat × Nat × Record) :=
      [(0, place, rec_ ((c.sr b').toNat % 2 ^ 16) ((List.range n).map (fun j => c.sr (a + j))))]
    let bare (o : OutRec) : OutRec := { o with port := none }
    -- the records that the crew has still to send: all of them, at first, or those that earlier turns have left
    let left (legal : Prop) (all out : List (Nat × Nat × Record)) : Prop :=
      (c.w = {} ∧ legal ∧ s.release c h (if remote then 4 else 3) = .done
        ∧ (∀ x ∈ all, emitCheck i h.node tgt x.2.2.aidx depth remote = none) ∧ out = all)
      ∨ (c.w.begun = true ∧ c.w.kind = .none ∧ c.w.emits = out)
    let turn (ins : Instr) (legal : Prop) (all : List (Nat × Nat × Record)) : Prop :=
      (left legal all [] → s.Completes c ins (fun c' => c.SameRegs c' ∧ c'.m = c.m ∧ c.SameCtl c'))
      ∧ ∀ lane dev x rest, left legal all ((lane, dev, x) :: rest) →
        let r : Record := { x with srccore := core }
        let die := dieOf core
        let full : Prop := 1024 ≤ (s.fab.outbound.filter (fun o => o.die == die)).length
        let sent (P : State → Prop) : Prop := ∃ t c', exec ins s = .next t ∧ t.crew? c.uid c.idx = some c'
          ∧ c.SameRegs c' ∧ c'.m = c.m ∧ c.SameCtl c' ∧ t.cohort? h.uid = some { h with effects := true }
          ∧ (rest = [] → c'.w = {} ∧ c'.r.pc = c.nextPc)
          ∧ (rest ≠ [] → c'.w.begun = true ∧ c'.w.kind = .none ∧ c'.w.emits = rest ∧ c'.r.pc = c.r.pc) ∧ P t
        let here : Prop := dev = 1024 ∨ (dev = s.devid ∧ refused i r = false)
        (here → s.waitsAhead i r.node r.aidx s.fresh.seq = false → ∀ u, s.enqueue? h.inst r true = some u →
          sent (fun t => t.insts = u.insts ∧ t.mem = u.mem ∧ t.fab = s.fab))
        ∧ (here → s.waitsAhead i r.node r.aidx s.fresh.seq = true ∨ s.enqueue? h.inst r true = none →
          s.Waits c ins (.emit r.node r.aidx))
        ∧ (dev ≠ 1024 → dev ≠ s.devid →
          (¬ full → sent (fun t => t.insts = s.insts ∧ t.mem = s.mem ∧ ∃ o : OutRec,
            t.fab.outbound.map bare = s.fab.outbound.map bare ++ [bare o] ∧ o.dev = dev ∧ o.die = die ∧ o.tag = i.l.tag ∧ o.r = r))
          ∧ (full → s.Waits c ins .emitRemote))
    turn (.emit d a b n q) ((n = 0 ∨ c.vOk a n = true) ∧ c.bOk b = true) lanes_
    ∧ turn (.emitS d a b' n) (n = 0 ∨ a + n ≤ 192) one

/-- R53, R210, R212: an EMIT to a target that is not declared, or beyond its ALAST, takes EDGE, and one beyond its
MAXDEPTH takes DEPTH, before anything is sent; the vector form takes the cause of its lowest lane that fails a check. -/
def Spec.EmitChecks : Prop :=
  ∀ (s : State) (c : Crew) (h : Cohort) (i : Inst), s.Issues c h → s.Handles c h → c.w.begun = false →
    s.inst? h.inst = some i → ∀ (d a b' n : Nat) (b : VOp) (q : Pred),
    let tgt := (c.sr d).toNat % 4096
    let remote := bitOf (c.sr d).toNat 31
    let depth := h.recDepth + (if !remote && i.backEmit h.node tgt then 1 else 0)
    let known : Prop := (i.node h.node).declared tgt remote = true
    let edge (e : Nat) : Prop := ¬ known ∨ (remote = false ∧ (i.node tgt).alast < e)
    let deep (e : Nat) : Prop := known ∧ remote = false ∧ e ≤ (i.node tgt).alast ∧ (i.node tgt).maxdepth < depth
    let trap (ins : Instr) (cause : Nat) : Prop := s.Enters c ins (s.nodeOf h).handler
      { cause := cause, pc := c.r.pc, resume := c.nextPc } c.SameRegs
    let one := (c.sr b').toNat % 2 ^ 16
    let e (l : Nat) : Nat := (c.bl b l).toNat % 2 ^ 16
    ((n = 0 ∨ a + n ≤ 192) → (edge one → trap (.emitS d a b' n) 8) ∧ (deep one → trap (.emitS d a b' n) 7))
    ∧ ((n = 0 ∨ c.vOk a n = true) → c.bOk b = true → ∀ l ∈ activeLanes (c.em q),
      (∀ k ∈ activeLanes (c.em q), k < l → ¬ edge (e k) ∧ ¬ deep (e k)) →
      (edge (e l) → trap (.emit d a b n q) 8) ∧ (deep (e l) → trap (.emit d a b n q) 7))

/-- R50, R55, R314: RECLD reads words of a record into registers: in a GATHER cohort each lane its own record, else the
cohort's; the scalar form reads the cohort's. -/
def Spec.RecordLoads : Prop :=
  ∀ (s : State) (c : Crew) (h : Cohort), s.Issues c h → c.NoStep → ∀ (d w n : Nat) (q : Pred), w + n ≤ 8 →
    let none_ : QRec := { id := 0, r := ⟨0, 0, 0, 0, 0, 0, false, 0, []⟩ }
    let word (k j : Nat) : Word := recWord (h.recs.getD k none_).r (w + j)
    (c.vOk d n = true → s.Completes c (.recldV d w n q) (c.TakesWords d n (c.em q) (fun l j =>
      word (if (s.nodeOf h).kind = 0 then 32 * c.idx + l else 0) j)))
    ∧ ((s.nodeOf h).kind ≠ 0 → d + n ≤ 192 → s.Completes c (.recldS d w n) (fun c' =>
      (∀ k, c'.sr k = if d ≤ k ∧ k < d + n ∧ k ≠ 0 then word 0 (k - d) else c.sr k)
        ∧ c'.r.v = c.r.v ∧ c'.r.p = c.r.p ∧ c'.m = c.m ∧ c.SameCtl c'))

/-- EMIT and EMIT.S, the operands they reject, and RECLD (R50, R52, R53, R54, R55, R57, R73, R210, R212, R304, R314). -/
def Obligations.EmitAndChecks : Prop := Spec.Emits ∧ Spec.EmitChecks ∧ Spec.RecordLoads

/-- R56, R57, R49: an arriving record blocks at an element that holds CAP records; else it joins the tail of the Loam
part while the queue has no Silt part and its bank has a free slot, with the element's next SEQ. -/
def Spec.EnqueueRules : Prop :=
  ∀ (s : State) (slot : Nat) (i : Inst) (r : Record), s.inst? slot = some i →
    let q := i.queue r.node r.aidx
    let full := (i.node r.node).cap ≤ q.count + s.granted i r.node r.aidx
    let bank := 12 * ((r.node + r.aidx) % 2) + (r.node + r.aidx) / 2 % 12
    (full → s.enqueue? slot r true = none)
    ∧ (¬ full → q.silt = [] → s.bankCount bank + s.bankGranted bank < 32768 → ∃ t i', s.enqueue? slot r true = some t
      ∧ t.inst? slot = some i' ∧ i'.queue r.node r.aidx = { q with
          loam := q.loam ++ [{ id := s.fresh.id, r := { r with seq := q.seq % 2 ^ 32 } }]
          seq := q.seq + 1, last := s.clk.cycle, linger := false }
      ∧ (∀ n e, (n ≠ r.node ∨ e ≠ r.aidx) → i'.queue n e = i.queue n e) ∧ t.mem = s.mem ∧ t.crews = s.crews)

/-- R296: a legal arrival at barrier `b`. BAR.arv goes on at once. BAR goes on when every crew that the mask counts has
arrived or exited; else it waits there. An arrival that completes the barrier, by BAR or BAR.arv, leaves its arrival set
empty and lets every crew that waits there go on; any other adds the crew to it, and the mask stands as of the first. BAR.wt
waits while its crew stands in the arrival set, and goes on when it does not. -/
def Spec.Barriers : Prop :=
  ∀ (s : State) (c : Crew) (h : Cohort), s.Issues c h → c.NoStep → c.w = {} → ∀ a b : Nat,
    let m := stageMask (c.sr a)
    let there (j : Nat) : Prop := (h.arr b).contains j = true ∨ ∃ d ∈ s.crewsOf h.uid, d.idx = j ∧ d.g.exited = true
    let all : Prop := ∀ j ∈ countedBy (s.crewsOf h.uid) m, j = c.idx ∨ there j
    let goes (i : Instr) (P : State → Prop) : Prop := ∃ t c', exec i s = .next t ∧ t.crew? c.uid c.idx = some c'
      ∧ c.Frame c' ∧ c'.w = {} ∧ c'.r.pc = c.nextPc ∧ c.SameRegs c' ∧ c'.m = c.m ∧ c.SameCtl c'
      ∧ t.mem = s.mem ∧ t.insts = s.insts ∧ P t
    let bars (t : State) (P : List Bar → Prop) : Prop := ∃ l, t.cohort? h.uid = some { h with bars := l } ∧ P l
    let others : Prop := ∃ d ∈ s.crewsOf h.uid, d.idx ≠ c.idx ∧ d.g.exited = false ∧ d.w.kind = .none
    let joined (l : List Bar) : Prop := ∃ x, l.find? (fun y => y.n == b) = some x ∧ x.arr = h.arr b ++ [c.idx] ∧ x.mask = m
    (badArrival c h b m = false →
      (¬ all → goes (.barArv a b) (fun t => bars t joined))
      ∧ (all → ∀ i : Instr, i = .barArv a b ∨ i = .bar a b → goes i (fun t => bars t (fun l => ∀ x ∈ l, x.n ≠ b)
        ∧ ∀ d ∈ t.crews, d.uid = h.uid → d.w.kind ≠ .barrier b))
      ∧ (¬ all → others → s.Waits c (.bar a b) (.barrier b) ∧ ∃ t, exec (.bar a b) s = .next t ∧ bars t joined))
    ∧ ((h.arr b).contains c.idx = false → goes (.barWt a b) (fun _ => True))
    ∧ ((h.arr b).contains c.idx = true → others → s.Waits c (.barWt a b) (.barrier b))

/-- R67, R308, R362: WAITPRED goes on in a cohort that was not started early, or once the node's predecessors are
complete, or in a crew whose WAITPRED has returned before, and acquires at device scope; else it waits. HINTSUCC, its release done, marks the crew as having hinted where
an EARLY node names its node as a predecessor, and does nothing more elsewhere. -/
def Spec.CompletionEdges : Prop :=
  ∀ (s : State) (c : Crew) (h : Cohort) (i : Inst), s.Issues c h → c.NoStep → c.w = {} → c.fail = none →
    s.inst? h.inst = some i →
    ((h.early = false ∨ c.g.waited = true ∨ s.predsDone i h.node = true) → (∀ l ∈ s.mem.loads, l.uid ≠ c.uid ∨ l.idx ≠ c.idx) →
      ∃ t c', exec .waitpred s = .next t ∧ t.crew? c.uid c.idx = some c' ∧ c.Fixed c' ∧ c'.w = {}
        ∧ c'.r.pc = c.nextPc ∧ c.TakesG { c.g with waited := true } c' ∧ c'.x.acq = s.fresh.stamp
        ∧ c'.x.floors = [] ∧ t.mem = s.mem ∧ t.insts = s.insts ∧ t.cohorts = s.cohorts)
    ∧ (h.early = true → c.g.waited = false → s.predsDone i h.node = false → s.Waits c .waitpred .waitpred)
    ∧ (s.release c h 3 = .done →
      ((∃ n ∈ i.nodes, n.early = true ∧ h.node ∈ n.preds) → s.Completes c .hintsucc (c.TakesG { c.g with hinted := true }))
      ∧ ((∀ n ∈ i.nodes, n.early = true → h.node ∉ n.preds) → s.Completes c .hintsucc (c.TakesG c.g)))

/-- BAR, WAITPRED and HINTSUCC (R67, R296, R308, R362). -/
def Obligations.BarriersAndEdges : Prop := Spec.Barriers ∧ Spec.CompletionEdges

/-- R302, R212: DEPSET.ARM checks, in this order, its record's payload (ILLEGAL), the edge and the element (EDGE), the depth
(DEPTH), and that the counter is neither armed nor pending (ILLEGAL), each before any effect. -/
def Spec.CounterChecks : Prop :=
  ∀ (s : State) (c : Crew) (h : Cohort) (i : Inst), s.Issues c h → s.Handles c h → s.inst? h.inst = some i →
    ∀ d a b : Nat,
    let v := (c.sr d).toNat
    let node := v / 2 ^ 8 % 2 ^ 12
    let elem_ := v / 2 ^ 20 % 2 ^ 16
    let k := v / 2 ^ 36 % 8
    let depth := h.recDepth + (if i.backEmit h.node node then 1 else 0)
    let long : Prop := 6 < k ∨ (0 < k ∧ 192 < b + k)
    let edge : Prop := (i.node h.node).declared node false = false ∨ (i.node node).alast < elem_
    let deep : Prop := (i.node node).maxdepth < depth
    let busy : Prop := ∃ x ∈ i.ctrs, x.n = v % 256
    let trap (cause : Nat) : Prop := s.Enters c (.depsetArm d a b) (s.nodeOf h).handler
      { cause := cause, pc := c.r.pc, resume := c.nextPc } c.SameRegs
    (long → trap 1) ∧ (¬ long → edge → trap 8) ∧ (¬ long → ¬ edge → deep → trap 7)
    ∧ (¬ long → ¬ edge → ¬ deep → busy → trap 1)

/-- R69, R70, R302: DEPSET.ARM arms a free counter of the instance with a count and a record; DEPSET.DEC lowers the
count, and the decrement that reaches zero enqueues the record and frees the counter when the element has room. One to a
counter that is not armed changes no counter and no queue. -/
def Spec.CounterEffects : Prop :=
  ∀ (s : State) (c : Crew) (h : Cohort) (i : Inst), s.Issues c h → c.NoStep → s.inst? h.inst = some i →
    ∀ d a b : Nat,
    let v := (c.sr d).toNat
    let ctr := v % 256
    let node := v / 2 ^ 8 % 2 ^ 12
    let elem_ := v / 2 ^ 20 % 2 ^ 16
    let k := v / 2 ^ 36 % 8
    let n : Nat := (c.sr a).toNat % 2 ^ 32
    let depth := h.recDepth + (if i.backEmit h.node node then 1 else 0)
    let r : Record := { node := node, aidx := elem_, depth := depth, npay := k, srcdev := s.devid, srccore := 0xFFFE
                        remote := false, seq := 0, pay := (List.range k).map (fun j => c.sr (b + j)) }
    let goes (mem : Global) (ins : Instr) (P : Inst → Prop) : Prop := ∃ t c' i', exec ins s = .next t
      ∧ t.crew? c.uid c.idx = some c' ∧ c'.w = {} ∧ c'.r.pc = c.nextPc ∧ c.SameRegs c' ∧ c'.m = c.m ∧ t.mem = mem
      ∧ t.cohort? h.uid = some { h with effects := true } ∧ t.inst? h.inst = some i' ∧ P i'
    (k ≤ 6 → (k = 0 ∨ b + k ≤ 192) → (i.node h.node).declared node false = true → elem_ ≤ (i.node node).alast →
      depth ≤ (i.node node).maxdepth → (∀ x ∈ i.ctrs, x.n ≠ ctr) →
      (0 < n → goes s.mem (.depsetArm d a b) (fun i' =>
        i' = { i with ctrs := i.ctrs ++ [{ n := ctr, remaining := (n : Int), r := r }] }))
      ∧ (n = 0 → s.waitsAhead i node elem_ s.fresh.seq = false → ∀ u iu, s.enqueue? h.inst r true = some u →
        u.inst? h.inst = some iu → goes u.mem (.depsetArm d a b) (fun i' => i'.ctrs = i.ctrs ∧ i'.queues = iu.queues)))
    ∧ (∀ x, i.ctrs.find? (fun y => y.n == ctr) = some x → x.pending = false →
      (0 < x.remaining - (n : Int) → goes s.mem (.depsetDec d a) (fun i' => i'.queues = i.queues
        ∧ i'.ctrs = i.ctrs.map (fun y => if y.n == ctr then { y with remaining := y.remaining - (n : Int) } else y)))
      ∧ (x.remaining - (n : Int) ≤ 0 → s.waitsAhead i x.r.node x.r.aidx s.fresh.seq = false → ∀ u iu,
        s.enqueue? h.inst x.r true = some u → u.inst? h.inst = some iu →
        goes u.mem (.depsetDec d a) (fun i' => i'.queues = iu.queues
          ∧ ∀ y ∈ i'.ctrs, y.n ≠ ctr)))
    ∧ ((∀ x, i.ctrs.find? (fun y => y.n == ctr) = some x → x.pending = true) →
      goes s.mem (.depsetDec d a) (fun i' => i' = i))

/-- DEPSET.ARM and DEPSET.DEC, their effects and the operands that ARM rejects (R69, R70, R212, R302). -/
def Obligations.DependenceCounters : Prop := Spec.CounterEffects ∧ Spec.CounterChecks

/-! ## The engines' instructions -/

/-- R176, R300, R175, R364, R244: MMQ and CPQ whose record or card obeys its rules put an item on the core's scheduler when
their release is done and it has room; until then they stall with the words as they were read first. A record that breaks a
rule takes ILLEGAL with its offset in FADDR, poisoned data in it ECC with that byte's offset. WDQ in a cohort of a tile
space hands its request over. Of this, the checks of records that can be read two ways are the
model's (log entries 39, 40, 43, 77). -/
def Obligations.EngineQueues : Prop :=
  ∀ (s : State) (c : Crew) (h : Cohort), s.Issues c h → ∀ (a : Nat) (task : Bool),
    let off := c.sr a
    let ins : Instr := if task then .mmq a else .cpq a
    let fits (n : Nat) : Prop := off.toNat % n = 0 ∧ off.toNat + n ≤ 1024 * h.sh.kib
    let tiles := (s.nodeOf h).tiles
    let item := readItem c h tiles off.toNat task
    let sound : Prop := s.spBadAt h [(off.toNat, 64)] = none ∧ ∀ ws, h.recordWords off.toNat task = some ws →
      s.spBadAt h ((blocksOf task (ws.take 8)).map (fun b => (b.1, b.2.1))) = none
    let ready (i : Item) : Prop := (c.w.held = [] ∧ fits 64 ∧ sound ∧ item = some i)
      ∨ (c.w.held ≠ [] ∧ i = heldItem c h tiles task c.w.held)
    (∀ i, c.NoStep → ready i → c.fail = none → s.release c h (if i.far s.devid then 4 else 3) = .done →
      (s.eng.items.filter (fun x => x.core == i.core)).length < 64 →
      s.Sends c ins (fun t => ∃ j : Item, t.eng.items = s.eng.items ++ [j] ∧ j.id = s.fresh.id
        ∧ { j with id := i.id, mmq := i.mmq } = i
        ∧ SMap.get 0 t.eng.mmqs i.core = SMap.get 0 s.eng.mmqs i.core + (if task then 1 else 0)))
    ∧ (∀ i, ready i → c.fail = none → s.release c h (if i.far s.devid then 4 else 3) = .done →
      64 ≤ (s.eng.items.filter (fun x => x.core == i.core)).length →
      ∃ t c', exec ins s = .next t ∧ s.Only t c c' ∧ c'.r = c.r ∧ c'.m = c.m ∧ c'.g = c.g
        ∧ (c.w.held = [] → some c'.w.held = h.recordWords off.toNat task) ∧ (c.w.held ≠ [] → c'.w.held = c.w.held))
    ∧ (∀ x, s.Handles c h → c.w.held = [] → fits 64 → s.spBadAt h [(off.toNat, 64)] = some x → s.Enters c ins
        (s.nodeOf h).handler { cause := 15, pc := c.r.pc, addr := BitVec.ofNat 64 x, resume := c.nextPc } c.SameRegs)
    ∧ (s.Handles c h → c.w.held = [] → fits 64 → sound → item = none → s.Enters c ins (s.nodeOf h).handler
        { cause := 1, pc := c.r.pc, addr := off, resume := c.nextPc } c.SameRegs)
    ∧ (∀ sp, c.NoStep → h.space = some sp → fits 8 → s.Sends c (.wdq a) (fun t => t.eng.items = s.eng.items
        ∧ t.eng.wdqs = s.eng.wdqs ++ [{ id := s.fresh.id, uid := c.uid, idx := c.idx, space := sp, off := off.toNat }]))

/-! ## The engines at work -/

/-- R119, R178, R181, R183: a tile task starts when every earlier item of its core with an overlapping region has gone,
and not before; an MMA, MMA.SC or MMA.INT then stands before its first step, a RINGDEF is done, and a TCLEAR has
cleared its whole tile and is done. -/
def Spec.TileTasks : Prop :=
  ∀ (s : State) (core id : Nat) (it : Item), s.item? core id = some it → it.task = true → it.sub = 0 →
    it.done = false → it.fail = none → it.wait = none → it.remote = none →
    let start (k : Nat) : Option Instr := match k with
      | 0 => some (.taskMma core id) | 1 => some (.taskMmaSc core id) | 2 => some (.taskMmaInt core id)
      | 3 => some (.taskRingdef core id) | 4 => some (.taskTclear core id) | _ => none
    let first : Prop := ∀ x ∈ s.eng.items, x.core = core → x.id < id → ringConflict x it = false
      ∧ ∀ a ∈ x.fp, ∀ b ∈ it.fp, (a.write = true ∨ b.write = true) → a.overlaps (x.uid == it.uid) b = false
    let becomes (i : Instr) (j : Item) (P : State → Prop) : Prop := ∃ t, exec i s = .next t ∧ t.item? core id = some j
      ∧ t.crews = s.crews ∧ t.mem = s.mem ∧ t.insts = s.insts ∧ P t
    ∀ i, start it.op = some i →
    (first → it.op ≤ 2 → becomes i { it with sub := 1 } (fun t => t.cohorts = s.cohorts))
    ∧ (first → it.op = 3 → becomes i { it with sub := 1, done := true } (fun t => t.cohorts = s.cohorts))
    ∧ (first → it.op = 4 → ∀ h, s.cohort? it.uid = some h → becomes i { it with sub := 1, done := true } (fun t =>
      ∃ x : Tiles, t.cohort? it.uid = some { h with tl := x } ∧
        let k := 64 * (core - h.sh.core) + it.fld 3 5 0
        (∀ n, SMap.get 0 x.e n = if n / 1024 = k then 0 else SMap.get 0 h.tl.e n)
        ∧ (∀ n, SMap.get false x.ls n = if n / 1024 = k then false else SMap.get false h.tl.ls n)
        ∧ ∀ n, SMap.get 0 x.st n = if n = k then 0 else SMap.get 0 h.tl.st n))
    ∧ ((∃ x ∈ s.eng.items, x.core = core ∧ x.id < id ∧ ∃ a ∈ x.fp, ∃ b ∈ it.fp, (a.write = true ∨ b.write = true)
        ∧ a.overlaps (x.uid == it.uid) b = true) → exec i s = .next s)

/-- A matrix step may go: its item, of a cohort that has not aborted, has started, nothing earlier holds it, its slot is
full and no other task is amid its steps. -/
def Spec.StepGoes (s : State) (core id : Nat) (it : Item) (h : Cohort) (r : Ring) : Prop :=
  s.item? core id = some it ∧ s.cohort? it.uid = some h ∧ it.ring = some r ∧ 0 < r.slotKib ∧ 0 < r.count
    ∧ it.task = true ∧ it.aborted = false ∧ it.sub = 1 ∧ s.itemGoes it = true ∧ it.tagWait h = false
    ∧ ∀ x ∈ s.eng.items, x.core = core → x.id ≠ id → x.task = true → x.pos = 0 ∨ x.done = true

/-- The operands of a step may be read: `n` bytes of B from `b` on in granules of its launch, and neither they nor the
1,024 bytes of A at `a` with poisoned data (R192, R193, R244). -/
def Spec.OperandsOk (s : State) (core : Nat) (h : Cohort) (a b n : Nat) : Prop :=
  (∀ g, b ≤ g → g < b + n → SMap.get 0 s.eng.wbOwner (128 * core + g / 4096) = h.serial)
    ∧ s.poisoned (h.spKey a) 1024 = false ∧ s.poisoned (wbKey core b) n = false

/-- What a step leaves (R167, R181, R183): the task at its next step, the last step of a slot with the tag of `slot` empty,
and everything unchanged but tile `k`, whose elements, LS flags and status `P` tells. -/
def Spec.StepLeaves (s : State) (core id : Nat) (it : Item) (h : Cohort) (r : Ring) (slot k : Nat)
    (P : Tiles → Prop) : Prop :=
  ∃ t h', exec (.matrixStep core id) s = .next t ∧ t.cohort? it.uid = some h'
    ∧ t.item? core id = some { it with pos := it.pos + 1, cache := [], done := it.pos + 1 == it.nstep }
    ∧ P h'.tl ∧ (∀ n, n / 1024 ≠ k → SMap.get 0 h'.tl.e n = SMap.get 0 h.tl.e n
      ∧ SMap.get false h'.tl.ls n = SMap.get false h.tl.ls n)
    ∧ (∀ n, n ≠ k → SMap.get 0 h'.tl.st n = SMap.get 0 h.tl.st n) ∧ h'.sp.w = h.sp.w
    ∧ (∀ n, SMap.get false h'.sp.full n = if (it.pos + 1) % r.slotKib = 0 ∧ n = (r.tag + 8 * slot) / 8 then false
        else SMap.get false h.sp.full n)
    ∧ t.mem = s.mem ∧ t.crews = s.crews ∧ t.insts = s.insts

/-- R168, R183, R192: step `j` of an MMA.INT on dense INT8 operands adds to each element of its tile the exact products of
A's row in the ring slot and B's column in the weight buffer, modulo 2^32 or clamped under SAT, which the tile's status
then says; no other tile changes, and the last step of a slot empties its tag. -/
def Spec.IntegerMatrixStep : Prop :=
  ∀ (s : State) (core id : Nat) (it : Item) (h : Cohort) (r : Ring), Spec.StepGoes s core id it h r → it.op = 2 →
    Ty.ofCode (it.fld 0 7 4) = .s8 → Ty.ofCode (it.fld 0 11 8) = .s8 → it.sparse = false →
    let j := it.pos
    let slot := (it.fld 1 13 8 + j / r.slotKib) % r.count
    let abase := r.base + 1024 * r.slotKib * slot + 1024 * (j % r.slotKib)
    let bbase := 256 * it.fld 2 10 0 + 1024 * j
    let tile := 64 * (core - h.sh.core) + it.fld 3 5 0
    let clr : Prop := it.fld 0 19 19 = 1 ∧ j = 0
    let sat : Bool := it.fld 7 9 9 = 1
    let av (i k : Nat) : Int := toSigned 8 (h.sp.byte (abase + 32 * i + k))
    let bv (k c : Nat) : Int := toSigned 8 (SMap.get 0 s.eng.wb (wbBytes * core + bbase + 32 * c + k)).toNat
    let old (i c : Nat) : Int :=
      if clr then 0 else toSigned 32 (SMap.get 0 h.tl.e (1024 * tile + 32 * i + c)).toNat
    let sum (i c : Nat) : Int := old i c + ((List.range 32).map (fun k => av i k * bv k c)).sum
    let out (i c : Nat) : Nat × Fl := Spec.intElem .s32 sat (sum i c)
    let clamped : Bool := (List.range 32).any (fun i => (List.range 32).any (fun c => (out i c).2.sat))
    Spec.OperandsOk s core h abase bbase 1024 → Spec.StepLeaves s core id it h r slot tile (fun x =>
      (∀ i < 32, ∀ c < 32, (SMap.get 0 x.e (1024 * tile + 32 * i + c)).toNat = (out i c).1)
      ∧ (∀ n, n / 1024 = tile → SMap.get false x.ls n = if clr then false else SMap.get false h.tl.ls n)
      ∧ SMap.get 0 x.st tile = (if clr then 0 else SMap.get 0 h.tl.st tile) ||| (if clamped then 4 else 0))

/-- R165: the exact product of two values times 2^`x`; none is the invalid product of a zero and an infinity. -/
def Spec.product (x : Int) : FV → FV → Option FV
  | .fin n m e, .fin k p f => some (.fin (n != k) (m * p) (e + f + x))
  | .inf n, .fin k p _ => if p = 0 then none else some (.inf (n != k))
  | .fin n m _, .inf k => if m = 0 then none else some (.inf (n != k))
  | .inf n, .inf k => some (.inf (n != k))
  | _, _ => some (.nan false)

/-- R166: the terms `ts` summed in a window of `w` bits give the FP32 pattern `bits`, with the flags LS, IV and OF. -/
def Spec.Window (w : Nat) (ts : List (Option FV)) (bits : Nat) (ls iv ov : Bool) : Prop :=
  let inf (n : Bool) : Prop := some (.inf n) ∈ ts
  let bad : Prop := none ∈ ts ∨ (inf false ∧ inf true)
  let nan : Prop := ∃ v, some v ∈ ts ∧ v.isNan = true
  let numbers : Prop := ∀ t ∈ ts, ∃ v, t = some v ∧ Spec.finite v = true
  let x (t : Option FV) : Rat := t.elim 0 Spec.val
  let top : Rat := Spec.val (decodeF .f32 0x7F7FFFFF)
  let below : Rat := Spec.val (decodeF .f32 0x7F7FFFFE)
  (bad ∨ nan → bits = 0x7FC00000 ∧ ls = false ∧ ov = false ∧ (iv = true ↔ bad))
  ∧ (¬ bad → ¬ nan → inf false ∨ inf true → ls = false ∧ iv = false ∧ ov = false
    ∧ (inf false → bits = 0x7F800000) ∧ (inf true → bits = 0xFF800000))
  ∧ (numbers → (∀ t ∈ ts, x t = 0) → ls = false ∧ iv = false ∧ ov = false
    ∧ ((∀ t ∈ ts, ∃ m e, t = some (.fin true m e)) → bits = 0x80000000)
    ∧ ((∃ t ∈ ts, ∃ m e, t = some (.fin false m e)) → bits = 0))
  ∧ (numbers → ∀ emax : Int, (∃ t ∈ ts, (2 : Rat) ^ emax ≤ (x t).abs) → (∀ t ∈ ts, (x t).abs < (2 : Rat) ^ (emax + 1)) →
    let quantum : Rat := (2 : Rat) ^ (emax - w + 1)
    let kept (t : Option FV) : Rat := quantum * (((x t).abs / quantum).floor : Rat)
    let sum : Rat := (ts.map (fun t => if x t < 0 then -kept t else kept t)).sum
    iv = false ∧ (ls = true ↔ ∃ t ∈ ts, kept t ≠ (x t).abs)
    ∧ (sum = 0 → bits = 0 ∧ ov = false)
    ∧ (sum ≠ 0 → sum.abs < top + (top - below) / 2 → Spec.Rounds .f32 1 0 sum bits ∧ ov = false)
    ∧ (top + (top - below) / 2 ≤ sum.abs → bits = (if sum < 0 then 0xFF800000 else 0x7F800000) ∧ ov = true))

/-- Element `m` of packed bytes of `w` bits each (R183): the even element of a 4-bit pair in the low bits. -/
def Spec.packed (w : Nat) (byte : Nat → Nat) (m : Nat) : Nat :=
  if w = 4 then byte (m / 2) / 16 ^ (m % 2) % 16 else if w = 8 then byte m else byte (2 * m) + 256 * byte (2 * m + 1)

/-- R184: the element of B at position `p` of column `c` of a step of `k` positions; a compressed step keeps two of each
four, the first at the place in the low bits of the group's nibble. -/
def Spec.weight (t : Ty) (k : Nat) (sparse : Bool) (byte : Nat → Nat) (c p : Nat) : Option Nat :=
  if sparse then
    let g := c * (k / 4) + p / 4
    let m := Spec.packed 4 (fun i => byte (512 + i)) g
    if p % 4 = m % 4 then some (Spec.packed t.width byte (2 * g))
    else if p % 4 = m / 4 then some (Spec.packed t.width byte (2 * g + 1)) else none
  else some (Spec.packed t.width byte (c * k + p))

/-- R152, R156: the value of an element under the scale code and spare of its block, none for an unscaled format. -/
def Spec.element (t : Ty) (n : Nat) : Option (Nat × Nat) → FV
  | none => decodeF t n
  | some (e, spare) =>
    if t = .e2m1s then Spec.blockValue n e spare
    else if e = 255 then .nan false
    else if t = .s8 then .fin (decide (toSigned 8 n < 0)) (toSigned 8 n).natAbs ((e : Int) - 127)
    else (decodeF t n).scale ((e : Int) - 127)

/-- R165, R166, R167, R183, R184, R192: step `j` of an MMA or MMA.SC sums for each element of its tile, in the window that
its W code names, the products of A's row in the ring slot and B's column in the weight buffer, scaled under MMA.SC by the
entries of R156 and by the factor of R164, and the element itself, +0 in a first step that clears. The LS flags and the
status of the tile are sticky. Here every scale line is in the core's cache. -/
def Spec.WindowedMatrixStep : Prop :=
  ∀ (s : State) (core id : Nat) (it : Item) (h : Cohort) (r : Ring) (k : Nat), Spec.StepGoes s core id it h r →
    let ta : Ty := .ofCode (it.fld 0 7 4)
    let tb : Ty := .ofCode (it.fld 0 11 8)
    (it.op = 0 ∧ k = 16 ∧ (ta = .f16 ∨ ta = .bf16) ∧ (tb = .f16 ∨ tb = .bf16))
      ∨ (it.op = 0 ∧ k = 32 ∧ (ta = .e4m3 ∨ ta = .e5m2) ∧ (tb = .e4m3 ∨ tb = .e5m2))
      ∨ (it.op = 1 ∧ k = 32 ∧ (ta = .e4m3 ∨ ta = .e5m2 ∨ ta = .s8) ∧ (tb = .e4m3 ∨ tb = .e5m2 ∨ tb = .s8))
      ∨ (it.op = 1 ∧ k = 64 ∧ ta = .e2m1s ∧ tb = .e2m1s) →
    let j := it.pos
    let slot := (it.fld 1 13 8 + j / r.slotKib) % r.count
    let abase := r.base + 1024 * r.slotKib * slot + 1024 * (j % r.slotKib)
    let size := if it.sparse then 512 + 4 * k else 1024
    let bbase := 256 * it.fld 2 10 0 + size * j
    let tile := 64 * (core - h.sh.core) + it.fld 3 5 0
    let clr : Prop := it.fld 0 19 19 = 1 ∧ j = 0
    let bytes := if ta = .e2m1s then 2 else 1
    let sc (n : Nat) : Nat := (it.sc.getD n 0).toNat
    let addr (b i p : Nat) : Nat := (sc b + (i * (sc 3 / 2 ^ (32 * b) % 2 ^ 32) + j * k + p) / 2 ^ (sc 2 / 2 ^ (4 * b) % 16)
      * bytes) % 2 ^ 64
    let entry (b i p : Nat) : Option (Nat × Nat) := if it.op = 0 then none
      else some (s.scaleByte it h.ctx (addr b i p), if bytes = 2 then s.scaleByte it h.ctx ((addr b i p + 1) % 2 ^ 64) else 0)
    let av (i p : Nat) : FV := Spec.element ta (Spec.packed ta.width (fun n => h.sp.byte (abase + n)) (i * k + p)) (entry 0 i p)
    let bv (c p : Nat) : Option FV :=
      (Spec.weight tb k it.sparse (fun n => (SMap.get 0 s.eng.wb (wbBytes * core + bbase + n)).toNat) c p).map (fun n =>
        Spec.element tb n (entry 1 c p))
    let x : Int := match it.fld 7 11 10 with | 1 => -4 | 2 => -5 | _ => 0
    let old (i c : Nat) : Nat := if clr then 0 else (SMap.get 0 h.tl.e (1024 * tile + 32 * i + c)).toNat
    let terms (i c : Nat) : List (Option FV) :=
      (List.range k).filterMap (fun p => (bv c p).map (fun b => Spec.product x (av i p) b)) ++ [some (decodeF .f32 (old i c))]
    let w := [16, 20, 24, 28, 32, 40, 48, 64].getD (it.fld 0 18 16) 16
    Spec.OperandsOk s core h abase bbase size →
    (it.op = 1 → ∀ b < 2, ∀ i < 32, ∀ p < k, (s.scaleLine it h.ctx (addr b i p / 64)).isSome = true
      ∧ (s.scaleLine it h.ctx ((addr b i p + (bytes - 1)) % 2 ^ 64 / 64)).isSome = true) →
    Spec.StepLeaves s core id it h r slot tile (fun y =>
      ∃ ls iv ov : Nat → Nat → Bool,
        (∀ i < 32, ∀ c < 32,
          Spec.Window w (terms i c) (SMap.get 0 y.e (1024 * tile + 32 * i + c)).toNat (ls i c) (iv i c) (ov i c)
          ∧ SMap.get false y.ls (1024 * tile + 32 * i + c)
            = (ls i c || (decide (¬ clr) && SMap.get false h.tl.ls (1024 * tile + 32 * i + c))))
        ∧ SMap.get 0 y.st tile = ((if clr then 0 else SMap.get 0 h.tl.st tile)
          ||| (if (List.range 32).any (fun i => (List.range 32).any (fun c => iv i c)) then 1 else 0))
          ||| (if (List.range 32).any (fun i => (List.range 32).any (fun c => ov i c)) then 2 else 0))

/-- How a tile task starts and what a step computes, in integers and in a window (R119, R165 to R168, R178, R181, R183,
R184, R192). Of this, that a step reads its operands at one instant is the model's (log entry 82). -/
def Obligations.TasksAndMatrixSteps : Prop := Spec.TileTasks ∧ Spec.IntegerMatrixStep ∧ Spec.WindowedMatrixStep

/-- R120, R182, R188, R192, R244: a job that may go reads a unit of its source, with the entry of its token and its scale
lines, or writes a word: to a slot whose tag is empty, to scratchpad, to the weight buffer, whose granule becomes its
launch's, or to a home of this device's memory. Nothing else changes but its place, the scale cache and the poison of a line
that the job has written whole. -/
def Spec.JobSteps : Prop :=
  ∀ (s : State) (core id : Nat) (it : Item) (h : Cohort), s.item? core id = some it → it.uid = h.uid →
    s.cohort? h.uid = some h → it.task = false → s.itemGoes it = true → it.total ≠ 0 →
    let part (n : Nat) : Option Instr := match it.op with
      | 0 => some (.jobCopy core id n) | 1 => some (.jobCopy2d core id n) | 2 => some (.jobGatherbt core id n)
      | 3 => some (.jobWiden core id n) | 4 => some (.jobFillwb core id n) | _ => none
    let n := min 8 (it.total - it.pos)
    let v := leVal (it.buf.take n)
    let next : Item := { it with buf := it.buf.drop n, pos := it.pos + n, done := it.pos + n == it.total }
    (∀ i it1 p s1 bs, part 0 = some i → it.sub < it.units → s.unitToken it h = (it1, .ok p) →
      s.fillScale it1 h.ctx (it1.unitLines it.sub p) (it1.unitLines it.sub p) = (s1, .ok ()) → s1.unitBytes it1 h it.sub p = .ok bs →
      ∃ t, exec i s = .next t
        ∧ t.item? core id = some { it1 with sub := it.sub + 1, buf := it.buf ++ bs, cache := [] }
        ∧ t.cohorts = s.cohorts ∧ t.crews = s.crews ∧ t.mem = s.mem ∧ t.eng.wb = s.eng.wb)
    ∧ (∀ i, part 1 = some i → it.aborted = false → n ≤ it.buf.length → it.selfOverlap = false →
      (∀ r, it.ring = some r → 0 < r.slotKib → 0 < r.count →
        let slot := (it.fld 2 13 8 + it.pos / (1024 * r.slotKib)) % r.count
        (h.full (r.tag + 8 * slot) = true → it.pos % (1024 * r.slotKib) = 0 → exec i s = .next s)
        ∧ (h.full (r.tag + 8 * slot) = false → ∃ t h', exec i s = .next t ∧ t.item? core id = some next
          ∧ t.cohort? h.uid = some h' ∧ t.mem.mem = s.mem.mem ∧ t.eng.wb = s.eng.wb ∧ t.crews = s.crews
          ∧ h'.sp.w = (h.spWrite (r.base + 1024 * r.slotKib * slot + it.pos % (1024 * r.slotKib)) n (BitVec.ofNat 64 v)).sp.w
          ∧ ∀ k, SMap.get false h'.sp.full k
            = if (it.pos + n) % (1024 * r.slotKib) = 0 ∧ k = (r.tag + 8 * slot) / 8 then true
              else SMap.get false h.sp.full k))
      ∧ (it.ring = none → it.op ≠ 4 → it.dstSp = true → ∃ t, exec i s = .next t ∧ t.item? core id = some next
        ∧ t.cohort? h.uid = some (h.spWrite (it.dstAt it.pos) n (BitVec.ofNat 64 v))
        ∧ t.mem.mem = s.mem.mem ∧ t.eng.wb = s.eng.wb ∧ t.crews = s.crews)
      ∧ (it.ring = none → it.op = 4 → ∃ t, exec i s = .next t ∧ t.item? core id = some next ∧ t.cohorts = s.cohorts
        ∧ t.mem.mem = s.mem.mem
        ∧ (∀ k, SMap.get 0 t.eng.wb k =
            if wbBytes * core + it.dstAt it.pos ≤ k ∧ k < wbBytes * core + it.dstAt it.pos + n
            then it.buf.getD (k - (wbBytes * core + it.dstAt it.pos)) 0 else SMap.get 0 s.eng.wb k)
        ∧ SMap.get 0 t.eng.wbOwner (128 * core + it.dstAt it.pos / 4096) = h.serial)
      ∧ (it.ring = none → it.op ≠ 4 → it.dstSp = false → ∀ va d key m, va = BitVec.ofNat 64 (it.dstAt it.pos) →
        s.route va = .own d → s.xlate h.ctx va .store false = some (.home key, m) → key / 2 ^ 56 ≠ 2 →
        let k0 := key + va.toNat % 2 ^ 16
        ∃ t, exec i s = .next t ∧ t.item? core id = some next ∧ t.cohorts = s.cohorts ∧ t.eng.wb = s.eng.wb
          ∧ ∀ k, t.byteAt k = if k0 ≤ k ∧ k < k0 + n then it.buf.getD (k - k0) 0 else s.byteAt k))

/-- R120: the `n` source bytes of a job at `a`, in scratchpad or at homes of this device's memory, read soundly, are the
bytes that stand there. -/
def Spec.SourceBytes : Prop :=
  ∀ (s : State) (it : Item) (h : Cohort) (a n : Nat), 0 < n →
    (it.srcSp = true → s.poisoned (h.spKey a) n = false →
      s.srcBytes it h a n = .ok ((List.range n).map (fun k => BitVec.ofNat 8 (h.sp.byte (a + k)))))
    ∧ (it.srcSp = false → ∀ key, a < 2 ^ 64 → a % 2 ^ 16 + n ≤ 2 ^ 16 → key / 2 ^ 56 ≠ 2 →
      (∀ i < (a % 8 + n + 7) / 8, let w := BitVec.ofNat 64 (8 * (a / 8 + i))
        (∃ d, s.route w = .own d) ∧ (∃ m, s.xlate h.ctx w .load false = some (.home key, m))
        ∧ s.poisoned (key + w.toNat % 2 ^ 16) 8 = false) →
      s.srcBytes it h a n = .ok ((List.range n).map (fun k => s.byteAt (key + a % 2 ^ 16 + k))))

/-- R188: a COPY gives its source in order; a COPY2D every word of every row once, in ascending order of the words'
destinations. -/
def Spec.CopyUnits : Prop :=
  ∀ (s : State) (it : Item) (h : Cohort) (u : Nat) (p : Option Nat), let src := it.fld 1 63 0
    (it.op = 0 → s.unitBytes it h u p = s.srcBytes it h (src + 8 * u) 8 ∧ it.dstAt (8 * u) = it.fld 2 63 0 + 8 * u)
    ∧ (it.op = 1 → let wpr := it.fld 3 31 0 / 8; let rows := it.fld 3 63 32; 0 < wpr →
      ∃ at_ : Nat → Nat × Nat, (∀ r < rows, ∀ i < wpr, ∃ k < rows * wpr, at_ k = (r, i))
        ∧ (∀ k < rows * wpr, (at_ k).1 < rows ∧ (at_ k).2 < wpr
          ∧ it.dstAt (8 * k) = (it.fld 2 63 0 + (at_ k).1 * it.fld 4 63 32 + 8 * (at_ k).2) % 2 ^ 64
          ∧ s.unitBytes it h k p = s.srcBytes it h ((src + (at_ k).1 * it.fld 4 31 0 + 8 * (at_ k).2) % 2 ^ 64) 8)
        ∧ ∀ k j, k ≤ j → j < rows * wpr → it.dstAt (8 * k) ≤ it.dstAt (8 * j))

/-- R179, R189: each token's entry is read once; 0xFFFFFFFF is a hole, which gives zeros, and any other the place of the
token in the pool, whose bytes the footprint must hold. -/
def Spec.TokenUnits : Prop :=
  ∀ (s : State) (it : Item) (h : Cohort) (u upt : Nat), let src := it.fld 1 63 0; let lg := it.fld 0 11 8
    (it.perToken = some upt → let t := it.fld 3 31 0 + it.sub / upt
      (∀ p, it.tok = some (t, p) → s.unitToken it h = (it, .ok p))
      ∧ (∀ bs, (∀ x, it.tok = some x → x.1 ≠ t) →
        s.itemBytes it h.ctx (BitVec.ofNat 64 (it.fld 4 63 0 + 4 * (t / 2 ^ lg))) 4 = .ok bs →
        let p := if leVal bs = 0xFFFFFFFF then none else some (leVal bs * 2 ^ lg + t % 2 ^ lg)
        s.unitToken it h = ({ it with tok := some (t, p) }, .ok p)))
    ∧ (it.op = 2 → let size := it.fld 0 47 24
      s.unitBytes it h u none = .ok (List.replicate 8 0)
      ∧ ∀ k, let a := (src + k * size + 8 * (u % (size / 8))) % 2 ^ 64
        (inside it.fp false 4 a 8 = true → s.unitBytes it h u (some k) = s.srcBytes it h a 8)
        ∧ (inside it.fp false 4 a 8 = false → ∃ va, s.unitBytes it h u (some k) = .bad 4 va))

/-- R156, R164, R190: a WIDEN decodes a run of packed elements, each with the entry of its scale index, rounds each to BF16,
and under HAD transforms the 32 of a run, each sum rounded once; a hole gives zero elements. -/
def Spec.WidenUnits : Prop :=
  ∀ (s : State) (it : Item) (h : Cohort) (u : Nat) (p : Option Nat), it.op = 3 → it.efmt = .e2m1s ∨ it.efmt = .e4m3 →
    let had := it.fld 7 11 10
    let g := if had = 0 then 4 else 32
    let run := if it.bt then it.fld 0 47 24 * (if it.efmt = .e2m1s then 2 else 1) else it.fld 3 31 0
    let size := if it.efmt = .e2m1s then 2 else 1
    had < 3 → (it.bt = true → p = none → s.unitBytes it h u p = .ok (List.replicate (2 * g) 0))
    ∧ ∀ i m, (it.bt = false ∧ i = g * u ∧ m = min g (run - g * u))
        ∨ (it.bt = true ∧ m = g ∧ ∃ k, p = some k ∧ i = k * run + g * (u % (run / g))) → (had ≠ 0 → m = 32) →
      let a := (it.fld 1 63 0 + i * it.efmt.width / 8) % 2 ^ 64
      let n := (m * it.efmt.width + 7) / 8
      (it.bt = true → inside it.fp false 4 a n = true) → ∀ bs, s.srcBytes it h a n = .ok bs → bs.length = n →
      let at_ (e : Nat) : Nat := ((it.sc.getD 0 0).toNat + e / 2 ^ ((it.sc.getD 2 0).toNat % 16) * size) % 2 ^ 64
      let entry (e : Nat) : Option (Nat × Nat) := if it.efmt = .e2m1s ∨ it.fld 0 18 18 = 1
        then some (s.scaleByte it h.ctx (at_ e), if size = 2 then s.scaleByte it h.ctx ((at_ e + 1) % 2 ^ 64) else 0) else none
      let y (e : Nat) : Nat := (convertF .bf16 1 false false 0
        (Spec.element it.efmt (Spec.packed it.efmt.width (fun k => (bs.getD k 0).toNat) e) (entry (i + e)))).1
      s.unitBytes it h u p = .ok ((List.range m).flatMap (fun e => leBytes 2
        (if had = 0 then y e else (sumF .bf16 1 false (Spec.hadamard (had == 2) (fun k => decodeF .bf16 (y k)) e)).1)))

/-- The magnitude of an element at place `p` goes before that of another at place `q` (R191): NaNs first, then infinities,
then numbers; ties go to the lower place. -/
def Spec.before (x : FV) (p : Nat) (y : FV) (q : Nat) : Prop :=
  let rank : FV → Nat := fun v => match v with | .nan _ => 2 | .inf _ => 1 | .fin _ _ _ => 0
  rank y < rank x ∨ (rank x = rank y ∧ ((Spec.val y).abs < (Spec.val x).abs ∨ ((Spec.val x).abs = (Spec.val y).abs ∧ p < q)))

/-- R184, R191: a FILLWB copies its source, or compresses each dense step: of each group of four it keeps the two elements of
largest magnitude in ascending place, which the group's nibble holds. -/
def Spec.FillUnits : Prop :=
  ∀ (s : State) (it : Item) (h : Cohort) (u : Nat) (p : Option Nat), let src := it.fld 1 63 0; it.op = 4 →
    (it.fld 0 17 16 ≠ 1 → s.unitBytes it h u p = s.srcBytes it h (src + 8 * u) 8)
    ∧ (it.fld 0 17 16 = 1 → it.efmt ∈ [Ty.f16, .bf16, .e4m3, .e5m2, .s8, .n8, .s4, .n4, .e2m1s] →
      let w := it.efmt.width
      let k := if w = 16 then 16 else if w = 8 then 32 else 64
      ∀ bs, s.srcBytes it h (src + 1024 * u) 1024 = .ok bs → bs.length = 1024 →
      ∃ out, s.unitBytes it h u p = .ok out ∧ out.length = 512 + 4 * k ∧ ∃ spare < 256, ∀ g < 8 * k,
        let dense (q : Nat) : Nat := Spec.packed w (fun i => (bs.getD i 0).toNat) (4 * g + q)
        let kept (q : Nat) : Nat := Spec.packed w (fun i => (out.getD i 0).toNat) (2 * g + q)
        let nib := Spec.packed 4 (fun i => (out.getD (512 + i) 0).toNat) g
        let v (q : Nat) : FV := if it.efmt = .e2m1s then Spec.blockValue (dense q) 127 spare
          else if it.efmt.isInt then .fin false (readInt it.efmt (dense q)).natAbs 0 else decodeF it.efmt (dense q)
        nib % 4 < nib / 4 ∧ nib / 4 < 4 ∧ kept 0 = dense (nib % 4) ∧ kept 1 = dense (nib / 4)
        ∧ ∀ q < 4, q ≠ nib % 4 → q ≠ nib / 4 → Spec.before (v (nib % 4)) (nib % 4) (v q) q
          ∧ Spec.before (v (nib / 4)) (nib / 4) (v q) q)

/-- R120, R179, R182, R188 to R192: how a job goes on, and what each kind of job makes of its source. Of this, that a whole
line written clears its poison, that an overlapping job reads first, and the address of a token outside the footprint are the
model's readings (log entries 19, 41, 83), and so are that WIDEN rotates its BF16 values after rounding and that a job
reads each scale line anew (log entry 42). That a compressed FILLWB step and a run of WIDEN are read at one instant is its
choice (log entry 82), and the value of code 8 in such a step is free (log entry 16). -/
def Obligations.Jobs : Prop :=
  Spec.JobSteps ∧ Spec.SourceBytes ∧ Spec.CopyUnits ∧ Spec.TokenUnits ∧ Spec.WidenUnits ∧ Spec.FillUnits

/-- R187, R69, R70, R193: an item that is done leaves its scheduler, writes its completion word, full, when CWEN is set, and
then, when DCEN is set, decrements its counter by one, whose last decrement enqueues the stored record and disarms the
counter, or makes it pending where the element has no room; one that failed leaves it with no such write, and its crew takes the cause at its next issue, with the PC
of its MMQ or CPQ and the failing address. R195, R364: an answer of the work distributor takes the next tile. Of this,
the form of a timeout trap is the model's (log entry 20). -/
def Obligations.ItemEndings : Prop :=
  ∀ (s : State) (core id : Nat) (it : Item) (h : Cohort) (c : Crew), s.item? core id = some it →
    it.core = core → it.id = id → s.cohort? it.uid = some h → s.crew? it.uid it.idx = some c → h.ev = .placed →
    h.halt = none → c.g.exited = false →
    let gone (t : State) : Prop := t.item? core id = none ∧ t.mem = s.mem
    (it.done = true → it.fail = none → it.remote = none → (it.task = true → it.op ≠ 3) →
      let ends (P : State → Prop) : Prop := ∃ t h', exec (.itemRetire core id) s = .next t ∧ t.item? core id = none
        ∧ t.crews = s.crews ∧ t.cohort? it.uid = some h' ∧ { h' with sp := h.sp } = h
        ∧ (∀ k, SMap.get 0 h'.sp.w k = if it.fld 6 20 20 = 1 ∧ k = it.fld 6 19 0 / 8
            then BitVec.ofNat 64 (it.fld 6 63 24) else SMap.get 0 h.sp.w k)
        ∧ (∀ k, SMap.get false h'.sp.full k = if it.fld 6 20 20 = 1 ∧ k = it.fld 6 19 0 / 8 then true
            else SMap.get false h.sp.full k) ∧ P t
      (it.fld 7 8 8 = 0 → ends (fun t => t.insts = s.insts ∧ t.mem = s.mem))
      ∧ ∀ i, it.fld 7 8 8 = 1 → s.inst? h.inst = some i → i.l.serial = h.serial →
        let n := it.fld 7 7 0
        let counts (g : Counter → Counter) (t : State) : Prop := t.mem = s.mem ∧ ∃ i', t.inst? h.inst = some i'
          ∧ i' = { i with ctrs := i.ctrs.map (fun y => if y.n == n then g y else y) }
        ((∀ x, i.ctrs.find? (fun y => y.n == n) = some x → x.pending = true) →
          ends (fun t => t.insts = s.insts ∧ t.mem = s.mem))
        ∧ ∀ x, i.ctrs.find? (fun y => y.n == n) = some x → x.pending = false →
          let room : Option State := if s.waitsAhead i x.r.node x.r.aidx s.fresh.seq then none else s.enqueue? h.inst x.r true
          (1 < x.remaining → ends (counts (fun y => { y with remaining := y.remaining - 1 })))
          ∧ (x.remaining ≤ 1 → ∀ u iu, room = some u → u.inst? h.inst = some iu → ends (fun t => t.mem = u.mem
            ∧ ∃ i', t.inst? h.inst = some i' ∧ i'.queues = iu.queues ∧ ∀ y ∈ i'.ctrs, y.n ≠ n))
          ∧ (x.remaining ≤ 1 → room = none →
            ends (counts (fun y => { y with remaining := y.remaining - 1, pending := true, seq := s.fresh.seq }))))
    ∧ (∀ cause addr xdev, it.fail = some (cause, addr, xdev) → ∃ t c', exec (.itemFailure core id) s = .next t ∧ gone t
      ∧ t.cohorts = s.cohorts ∧ t.insts = s.insts ∧ t.crew? it.uid it.idx = some c'
      ∧ c' = { c with pend := c.pend ++ [{ cause := cause, pc := it.pc, addr := addr, resume := c.r.pc, xdev := xdev
                                           late := true }] })
    ∧ (∀ w i p, s.eng.wdqs = [w] → w.uid = it.uid → s.insts = [i] → i.spaces = [p] → w.space = p.id →
      ∃ t h' i', exec (.wdqAnswer w.id) s = .next t ∧ t.eng.wdqs = [] ∧ t.cohort? it.uid = some h' ∧ t.insts = [i']
        ∧ i'.spaces = [{ p with next := p.next + 1 }] ∧ SMap.get false h'.sp.full (w.off / 8) = true
        ∧ ∀ k, SMap.get 0 h'.sp.w k = if k = w.off / 8 then
            (if p.next < p.gx * p.gy * p.gz then
              BitVec.ofNat 64 (p.next % p.gx + 2 ^ 20 * (p.next / p.gx % p.gy) + 2 ^ 40 * (p.next / (p.gx * p.gy)))
            else BitVec.allOnes 64) else SMap.get 0 h.sp.w k)

/-! ## Scheduling -/

/-- R31, R46, R49, R80, R278: a round of a die that holds one offer, of a KIND 1 element that fits, takes the record at the
head of the element and places one cohort for it on the target, with the crews in the state of R31. Every round counts
itself and ends the YIELDs of its die (R367). -/
def Spec.PlacementRounds : Prop :=
  ∀ (s : State) (die : Nat), die < 2 →
    (∃ t, exec (.placementRound die) s = .next t
      ∧ (∀ d < 2, 2 ≤ s.clk.rounds.length →
        t.clk.rounds.getD d 0 = s.clk.rounds.getD d 0 + (if d = die then 1 else 0))
      ∧ ∀ c ∈ t.crews, ∀ h, t.cohort? c.uid = some h → dieOf (h.coreOf c.idx) = die → h.ev = .placed →
        c.w.kind ≠ .yield)
    ∧ ∀ (a : Inst) (n e core : Nat) (x : QRec) (rest : List QRec), s.insts = [a] → s.sched.resv = [] → s.sched.asks = [] →
      s.sched.claims = [] → s.fab.asks = [] → (∀ h ∈ s.cohorts, h.ev = .placed ∧ h.uid < s.fresh.uid) →
      (∀ c ∈ s.crews, c.uid < s.fresh.uid) → a.busyElems die = [(n, e)] → a.grids = [] → a.a.lpSize = 0 →
      (a.queue n e).back = [] → (a.queue n e).loam = x :: rest → s.recPoisoned a x = false →
      let nd := a.node n
      nd.kind = 1 → s.offers a n e = true → s.target die (some (a.slot, n, e)) none nd.shape = some core →
      ∃ t h a', exec (.placementRound die) s = .next t ∧ t.cohorts = s.cohorts ++ [h] ∧ h.uid = s.fresh.uid
        ∧ h.node = n ∧ h.elem = e ∧ h.recs = [x] ∧ h.inst = a.slot ∧ h.sh = { nd.shape with core := core }
        ∧ t.insts = [a'] ∧ (a'.queue n e).loam = rest ∧ t.mem = s.mem
        ∧ ∀ i < nd.ncrew, ∃ c, t.crew? h.uid i = some c ∧ c.r.pc = nd.entry ∧ c.stage = nd.stage i
          ∧ c.m = { om := Mask.all, xm := Mask.all } ∧ { c.g with moving := false } = { seed := a.l.seed } ∧ c.r.v = [] ∧ c.r.p = []
          ∧ c.size = 8 * nd.ireg.getD (nd.stage i) 0 ∧ c.x.acq = s.fresh.stamp
          ∧ ∀ k, c.sr k = match k with
            | 1 => nd.const
            | 2 => a.l.ictx
            | 6 => BitVec.ofNat 64 (i + 2 ^ 8 * nd.stage i + 2 ^ 16 * nd.ncrew)
            | 7 => 1
            | _ => 0

/-- R83, R61, R86: a node with 64 rounds passed ages; LINGER cycles after the last arrival an element is marked; an offer
walked in 4,096 rounds takes a reservation on a free target. Before that nothing happens. -/
def Spec.OffersThatWait : Prop :=
  ∀ (s : State) (i : Nat) (a : Inst) (n e : Nat), s.inst? i = some a →
    let q := a.queue n e
    let inst (ins : Instr) (b : Inst) : Prop := ∃ t, exec ins s = .next t ∧ t.inst? i = some b ∧ t.crews = s.crews
      ∧ t.mem = s.mem ∧ t.sched = s.sched
    let ripe : Bool := 64 ≤ SMap.get 0 a.passed n && !a.aged.contains n
    inst (.nodeAges i n) { a with aged := if ripe then a.aged ++ [n] else a.aged }
    ∧ ((a.node n).linger ≠ 0 → 0 < q.count → q.last + (a.node n).linger ≤ s.clk.cycle →
      ∃ b, inst (.lingerExpiry i n e) b ∧ b.queue n e = { q with linger := true })
    ∧ (s.clk.cycle < q.last + (a.node n).linger → inst (.lingerExpiry i n e) a)
    ∧ (∀ core, a.slot = i → (∃ o ∈ a.offers, o.node = n ∧ o.elem = e ∧ 4096 ≤ o.walked) →
      (∀ r ∈ s.sched.resv, r.key ≠ (i, n, e)) → s.sched.asks = [] →
      (s.sched.resv.filter (fun r => dieOf r.core == queueDie n e)).length < 8 →
      s.resvTarget (queueDie n e) (a.node n).shape = some core →
      ∃ t, exec (.reservationTake i n e) s = .next t ∧ t.insts = s.insts ∧ t.crews = s.crews
        ∧ t.sched = { s.sched with resv := s.sched.resv ++ [⟨core, (a.node n).shape.span, (i, n, e)⟩] })
    ∧ ((∀ o ∈ a.offers, o.node = n → o.elem = e → o.walked < 4096) → exec (.reservationTake i n e) s = .next s)

/-- A placement round, and offers that wait (R31, R46, R49, R61, R80, R83, R86, R278, R367). Of this, offers per
round, that timed events may come late and when a placement on the other die takes effect are the model's (log entries 52,
70, 84). -/
def Obligations.PlacementAndOffers : Prop := Spec.PlacementRounds ∧ Spec.OffersThatWait

/-- R87, R88, R222: the only candidate of a die, an offer not placed for 20 µs, becomes the claimant and the save of the
first cohort of its choice begins; when the waits of the save are over, the image goes to the lowest free save slot and
the cohort holds no core. -/
def Spec.Eviction : Prop :=
  ∀ (s : State) (u : Nat) (h : Cohort) (a : Inst), s.cohort? u = some h → s.inst? h.inst = some a → s.sched.claims = [] →
    (∀ (die slot n e core : Nat) (key : List Nat) (b : Inst) (us : List Nat),
      s.candidates die = [⟨key, none, slot, n, e⟩] → s.inst? slot = some b →
      (∃ o ∈ b.offers, o.node = n ∧ o.elem = e ∧ o.since + 20000 ≤ s.clk.ns) → b.a.lpSize = 0 →
      s.evictChoice die (slot, n, e) (b.node n).shape (s.np b n) = some (core, u :: us) →
      s.eligible h (s.np b n) = true →
      ∃ t, exec (.evictionClaim die) s = .next t ∧ t.cohort? u = some { h with ev := .saving, back := false }
        ∧ t.sched.claims = [⟨die, (slot, n, e), core, u :: us⟩] ∧ t.crews = s.crews ∧ t.mem = s.mem)
    ∧ (h.ev = .saving → (∃ c ∈ s.crewsOf u, c.g.exited = false) → (∀ c ∈ s.crewsOf u, c.fail = none ∧ c.pend = []) →
      s.saveReady h = true → h.lp = none → (∀ r ∈ s.mem.remote, r.who ≠ .lp u) → ∀ k, a.freeSlot = some k →
      let image := saveImage h (s.crewsOf u) false
      ∃ t a', exec (.evictionSaveComplete u) s = .next t
        ∧ t.cohort? u = some { h with ev := .evicted k, slots := [], back := false }
        ∧ t.inst? h.inst = some a' ∧ a'.a.slotsUsed = k :: a.a.slotsUsed
        ∧ (∀ j < image.length, t.byteAt (rawKey (a.slotVa k) + j) = image.getD j 0)
        ∧ ∀ x, x < rawKey (a.slotVa k) ∨ rawKey (a.slotVa k) + image.length ≤ x → t.byteAt x = s.byteAt x)

/-- R90, R216: at RUNLIMIT the lowest crew that has not exited takes RUNLIMIT (16) with its handler, and the counter
begins again; before it nothing happens, nor while accesses of a unit that this crew is amid are out already. R214: a crew told to halt stops at its freeze point. R36: a move of registers
ends. -/
def Spec.LimitsAndStops : Prop :=
  ∀ (s : State) (u : Nat) (h : Cohort), s.cohort? u = some h →
    let limit := 1024 * (s.nodeOf h).runlimit
    (h.run < limit → exec (.runlimitExpiry u) s = .next s)
    ∧ (∀ c, limit ≤ h.run → (s.crewsOf u).find? (fun c => !c.g.exited) = some c → c.w.kind = .none → c.w.own ≠ [] →
      exec (.runlimitExpiry u) s = .next s)
    ∧ (∀ c, limit ≤ h.run → h.ev = .placed → h.halt = none → h.expired = false → h.uid = u →
      (s.crewsOf u).find? (fun c => !c.g.exited) = some c → s.crew? u c.idx = some c → c.uid = u →
      c.w.kind ≠ .none ∨ c.w.own = [] → (s.nodeOf h).handler ≠ 0 → c.g.hnd = false → c.g.ccr.getLsbD 13 = false →
      ∃ t c', exec (.runlimitExpiry u) s = .next t ∧ t.crew? u c.idx = some c' ∧ c'.r.pc = (s.nodeOf h).handler
        ∧ c'.f = { pc := c.r.pc, cause := 16 } ∧ c'.h.pc = c.r.pc ∧ c'.h.xm = c.m.xm ∧ c'.h.msd = c.m.msd
        ∧ c'.m.xm = c.m.om ∧ c'.g.hnd = true ∧ c.SameRegs c' ∧ t.mem = s.mem
        ∧ t.cohort? u = some { h with run := 0, expired := true })
    ∧ (∀ i c, s.crew? u i = some c →
      (c.g.stopping = true → c.g.moving = false → (∀ k, h.halt = some k → k.abort = false) →
        ∃ t, exec (.freezePointReached u i) s = .next t
          ∧ t.crew? u i = some { c with g := { c.g with stopping := false, frozen := true } }
          ∧ t.cohorts = s.cohorts ∧ t.mem = s.mem)
      ∧ (c.g.stopping = false → exec (.freezePointReached u i) s = .next s)
      ∧ ∃ t, exec (.compactorMoveDone u i) s = .next t ∧ t.cohorts = s.cohorts ∧ t.mem = s.mem
        ∧ t.crew? u i = some { c with g := { c.g with moving := false } })

/-- Eviction, the freeze point, RUNLIMIT and the stops of a graph (R36, R87, R88, R90, R214, R216, R222). Of this, the
choice of the claimant is the model's (log entries 17, 54, 55). -/
def Obligations.EvictionAndLimits : Prop := Spec.Eviction ∧ Spec.LimitsAndStops

/-- R74, R75: an instance with a queued record, a live cohort, a record in an outbound area, a counter armed or pending, a
record that still yields cohorts, or a task or job in flight does not complete, nor one whose launch has not begun, or with a
store not performed; one with none of them writes its completion value, leaves the device alone of all instances and
sends the interrupt it asked for. One whose crews and offers have waited on nothing but themselves for 10 µs halts; a crew
that runs or waits for YIELD, WAITA or a page, an outbound record, and a task or job prevent it. Of this, when R75 is
observed and whose outbound records count is the model's reading (log entry 56), and so is what a completed instance
whose word is on its way still does (log entry 108). -/
def Obligations.InstanceEnds : Prop :=
  ∀ (s : State) (i : Nat) (a : Inst), s.inst? i = some a → a.l.ending = false →
    (∀ b ∈ s.insts, b.slot = i ∨ b.l.serial = a.l.serial → b = a) →
    let mine : Prop := (∃ o ∈ s.fab.outbound, o.serial = a.l.serial)
      ∨ ∃ h ∈ s.cohorts, h.serial = a.l.serial ∧ ∃ x ∈ s.eng.items, x.uid = h.uid
    let busy : Prop := (∃ q ∈ a.queues, q.count ≠ 0) ∨ (∃ h ∈ s.cohorts, h.serial = a.l.serial ∧ h.ev ≠ .dead)
      ∨ a.ctrs ≠ [] ∨ a.grids ≠ [] ∨ a.l.waiting = true ∨ (∃ b ∈ s.insts, a.l.dep = some b.l.serial) ∨ mine
    let unstored : Prop := (∃ e ∈ s.mem.stores, e.serial = a.l.serial ∧ e.far = false)
      ∨ ∃ e ∈ s.mem.log, e.serial = a.l.serial
    (∀ k, ¬ busy → ¬ unstored → (∀ r ∈ s.mem.remote, r.who ≠ .completion a.l.serial) →
      s.devWord (.completion a.l.serial) a.l.ctx a.l.compVa .store = .ok k → k / 2 ^ 56 ≠ 2 →
      ∃ t, exec (.instanceComplete i) s = .next t ∧ t.insts = s.insts.filter (fun b => b.slot != i)
        ∧ (∀ x, t.byteAt x = if k ≤ x ∧ x < k + 8 then BitVec.ofNat 8 (a.l.compVal.toNat / 256 ^ (x - k))
            else s.byteAt x)
        ∧ (∀ v, a.l.irq = some v → t.fab.out.getLast? = some (.msix v))
        ∧ t.host.past = s.host.past ++ [⟨a.l.serial, a.l.proc, a.l.qsb, 1⟩])
    ∧ (busy ∨ unstored → exec (.instanceComplete i) s = .next s)
    ∧ (∀ since, a.stuck = some since → since + 10000 ≤ s.clk.ns → s.stuckNow a = true →
      (∀ b ∈ s.insts, b.l.dep ≠ some a.l.serial) →
      ∃ t, exec (.graphdeadlock i) s = .next t ∧ t.insts = s.insts.filter (fun b => b.slot != i)
        ∧ (∀ h ∈ t.cohorts, h.serial = a.l.serial → h.ev = .dead)
        ∧ t.host.past = s.host.past ++ [⟨a.l.serial, a.l.proc, a.l.qsb, 2⟩])
    ∧ (a.stuck = none ∨ (∃ since, a.stuck = some since ∧ s.clk.ns < since + 10000) ∨ s.live a = [] ∨ mine
        ∨ (∃ h ∈ s.cohorts, h.serial = a.l.serial ∧ h.ev ≠ .dead ∧ ∃ c ∈ s.crewsOf h.uid, (c.g.exited = false ∨ c.g.hnd = true)
          ∧ (c.w.kind = .none ∨ c.w.kind = .yield ∨ (∃ k va w, c.w.kind = .waita k va w) ∨ ∃ p, c.w.kind = .page p)) →
      exec (.graphdeadlock i) s = .next s)

/-- R54, R70, R58, R244: a blocked EMIT sends its last record once there is room and goes on; a pending counter fires then
and is disarmed. A spill moves at least 64 of the newest Loam records of its queue, a refill the oldest Silt block, and
neither changes the order of the records; a poisoned record in the block halts its instance. The queue of a spill is the
one with the most Loam records in the bank, of those the one of the lowest node and then the lowest element; with one
Silt block free it moves 64 of its newest, or all when there are fewer, and no other queue changes. -/
def Spec.QueuesMoveOn : Prop :=
  ∀ (s : State) (i : Nat) (a : Inst), s.inst? i = some a →
    (∀ (h : Cohort) (c : Crew) (n e lane : Nat) (r : Record) (rest : List (Nat × Nat × Record)) (u : State),
      s.cohort? c.uid = some h → s.crew? c.uid c.idx = some c → h.inst = i → h.ev = .placed → h.halt = none →
      c.w.kind = .emit n e → r.node = n → r.aidx = e → c.w.emits = (lane, 1024, r) :: rest →
      s.waitsAhead a n e c.w.seq = false → s.enqueue? i { r with srccore := h.coreOf c.idx } true = some u →
      ∃ t c', exec (.emitWake c.uid c.idx) s = .next t ∧ t.insts = u.insts ∧ t.mem = u.mem
        ∧ t.crew? c.uid c.idx = some c' ∧ c'.w.emits = rest ∧ c'.r = c.r ∧ c'.m = c.m ∧ c'.g = c.g
        ∧ (rest = [] → c'.w.kind = .none)
        ∧ ∀ x more, rest = x :: more → x.2.1 = 1024 →
          c'.w.kind = if x.2.2.node = n ∧ x.2.2.aidx = e then .emit n e else .none)
    ∧ (∀ (x : Counter) (u : State) (b : Inst), a.ctrs.find? (fun y => y.n == x.n) = some x → x.pending = true →
      s.waitsAhead a x.r.node x.r.aidx x.seq = false → s.enqueue? i x.r true = some u → u.inst? i = some b →
      ∃ t, exec (.counterPendingEnqueue i x.n) s = .next t ∧ t.crews = s.crews ∧ t.mem = u.mem
        ∧ t.inst? i = some { b with ctrs := b.ctrs.filter (fun y => y.n != x.n) })
    ∧ (∀ (q : Queue) (die cluster : Nat), s.insts = [a] → q ∈ a.queues → bankOf q.node q.elem = 12 * die + cluster →
      a.queues.Pairwise (fun x y => x.node ≠ y.node ∨ x.elem ≠ y.elem) →
      (∀ p ∈ a.queues, bankOf p.node p.elem = 12 * die + cluster → p.loam.length < q.loam.length
        ∨ (p.loam.length = q.loam.length ∧ (q.node < p.node ∨ (q.node = p.node ∧ q.elem ≤ p.elem)))) →
      28672 < s.bankCount (12 * die + cluster) → a.freeBlocks = 1 → q.loam ≠ [] → (∀ x ∈ q.loam, x.blk = none) →
      s.fab.grants = [] → (∀ x ∈ a.stored, ∀ b, x.blk = some b → b < a.a.siltBlocks) →
      let keep := q.loam.length - 64
      ∃ t b p blk, exec (.loamSpill die cluster) s = .next t ∧ t.insts = [b]
        ∧ b.queues = a.queues.map (fun x => if x.node = q.node ∧ x.elem = q.elem then p else x)
        ∧ p = { q with loam := q.loam.take keep, silt := blk :: q.silt }
        ∧ blk.map (fun x => (x.id, x.r)) = (q.loam.drop keep).map (fun x => (x.id, x.r)))
    ∧ (∀ (q : Queue) (die cluster f : Nat), s.insts = [a] → a.queues = [q] → bankOf q.node q.elem = 12 * die + cluster →
      28672 < s.bankCount (12 * die + cluster) → a.freeBlock = some f → q.loam ≠ [] → s.fab.grants = [] →
      (∀ x ∈ a.stored, ∀ b, x.blk = some b → b < a.a.siltBlocks) →
      ∃ t b p, exec (.loamSpill die cluster) s = .next t ∧ t.insts = [b] ∧ b.queues = [p] ∧ p.back = q.back
        ∧ p.seq = q.seq ∧ p.loam.length ≤ q.loam.length - 64
        ∧ p.all.map (fun x => (x.id, x.r)) = q.all.map (fun x => (x.id, x.r)))
    ∧ (∀ die cluster, s.bankCount (12 * die + cluster) ≤ 28672 → exec (.loamSpill die cluster) s = .next s)
    ∧ (∀ (n e : Nat) (blk : List QRec) (rest : List (List QRec)), (a.queue n e).silt = blk :: rest →
      (a.queue n e).loam.length < (if (a.node n).kind = 0 then 32 * (a.node n).ncrew else 1) →
      s.bankCount (bankOf n e) ≤ 28672 →
      ((∀ x ∈ blk, s.recPoisoned a x = false) → ∃ t b, exec (.loamRefill i n e) s = .next t ∧ t.inst? i = some b
        ∧ t.crews = s.crews ∧ t.mem = s.mem ∧ b.queue n e = { a.queue n e with
          loam := (a.queue n e).loam ++ blk.map (fun x => { x with blk := none }), silt := rest })
      ∧ ((∃ x ∈ blk, s.recPoisoned a x = true) → s.insts = [a] → a.slot = i → a.l.ending = false →
        ∃ t, exec (.loamRefill i n e) s = .next t ∧ t.insts = []
          ∧ t.host.past = s.host.past ++ [⟨a.l.serial, a.l.proc, a.l.qsb, 2⟩]))

/-- Records enter a queue in order, and queues move on (R49, R54, R56, R57, R58, R70, R72, R244). Of this, the room of a
Silt block is the model's (log entry 29). -/
def Obligations.QueueRules : Prop := Spec.EnqueueRules ∧ Spec.QueuesMoveOn

/-! ## Fabric -/

/-- R71, R72, R204: a record of another device is enqueued with its remote bit and acknowledged, or refused when its
instance or node is not there, or dropped when its element has no room; one that came before is only acknowledged. -/
def Spec.RecordArrivals : Prop :=
  ∀ (s : State) (src die sn tag : Nat) (r : Record),
    let ev : Instr := .remoteRecordArrival src die sn tag false r
    let key := (src, tag, r.node, r.aidx)
    let sends (m : Msg) (P : State → Prop) : Prop := ∃ t, exec ev s = .next t ∧ t.fab.out = s.fab.out ++ [m]
      ∧ t.crews = s.crews ∧ P t
    let same (t : State) : Prop := t.insts = s.insts ∧ t.mem = s.mem
    ((src, die, sn) ∈ s.fab.seen → sends (.ack src die sn) same)
    ∧ ((src, die, sn) ∉ s.fab.seen →
      ((∀ a ∈ s.insts, a.l.tag ≠ tag ∨ a.l.waiting = true ∨ a.l.ending = true) → sends (.refuse src die sn) same)
      ∧ ∀ a, s.tagged tag = some a →
        let nd := a.node r.node
        let bad : Prop := a.nodes.length ≤ r.node ∨ nd.ingress = false ∨ nd.alast < r.aidx ∨ nd.maxdepth < r.depth
        (bad → sends (.refuse src die sn) same)
        ∧ (¬ bad → key ∉ s.fab.dropped →
          (∀ u, s.enqueue? a.slot { r with remote := true } true = some u → sends (.ack src die sn) (fun t =>
            t.insts = u.insts ∧ t.mem = u.mem ∧ (src, die, sn) ∈ t.fab.seen))
          ∧ (s.enqueue? a.slot { r with remote := true } true = none → sends (.drop src die sn) (fun t =>
            same t ∧ key ∈ t.fab.dropped ∧ t.fab.seen = s.fab.seen))))

/-- R71, R72: at the source, an acknowledged record frees its place; a refused one halts its instance; a dropped one is held
and a reservation is asked for; a grant sends the held records of its element again, in emit order, up to the places
granted. At the target, places that are free are granted, and a grant that is over is given up. -/
def Spec.Reservations : Prop :=
  (∀ (s : State) (dev tag node elem n : Nat),
    let held := s.fab.outbound.filter (fun o => o.held && o.dev == dev && o.tag == tag && o.r.node == node && o.r.aidx == elem)
    let goes (o : OutRec) : Bool := (held.take n).any (fun x => x.id == o.id)
    s.fab.outbound.Pairwise (fun x y => x.id ≠ y.id) → (∀ o ∈ held, (s.recordPort o.die o.dev).isSome = true) →
    ∃ t, exec (.reservationGrant dev tag node elem n) s = .next t ∧ t.insts = s.insts ∧ t.crews = s.crews ∧ t.mem = s.mem
      ∧ t.fab.out = s.fab.out ++ (held.take n).map (fun o => .record o.dev o.die o.sn o.tag true o.r)
      ∧ t.fab.outbound = s.fab.outbound.map (fun o => if goes o
          then { o with held := false, granted := true, port := s.recordPort o.die o.dev } else o))
  ∧ ∀ (s : State) (o : OutRec), s.fab.outbound = [o] →
    let sends (i : Instr) (ms : List Msg) (P : State → Prop) : Prop := ∃ t, exec i s = .next t
      ∧ t.fab.out = s.fab.out ++ ms ∧ t.insts = s.insts ∧ t.crews = s.crews ∧ t.mem = s.mem ∧ P t
    sends (.remoteRecordAck o.id) [] (fun t => t.fab.outbound = [])
    ∧ (∀ a, s.insts = [a] → a.l.serial = o.serial → a.l.ending = false → ∃ t, exec (.remoteRecordRefused o.id) s = .next t ∧ t.insts = []
      ∧ t.fab.outbound = [] ∧ t.host.past = s.host.past ++ [⟨a.l.serial, a.l.proc, a.l.qsb, 2⟩])
    ∧ (o.held = false → sends (.dropNotice o.id) [.reserve o.dev o.tag o.r.node o.r.aidx 1] (fun t =>
      t.fab.outbound = [{ o with held := true, granted := false }]))
    ∧ (∀ src tag node elem n a, s.fab.asks = [] → s.tagged tag = some a →
      let m := min n (s.spare a node elem).1
      0 < m → sends (.reservationRequest src tag node elem n) [.grant src tag node elem m] (fun t => t.fab.asks = []
        ∧ ∃ g : Grant, t.fab.grants = s.fab.grants ++ [g] ∧ g.out = false ∧ g.src = src ∧ g.tag = tag ∧ g.node = node
          ∧ g.elem = elem ∧ g.n = m ∧ g.silt = (s.spare a node elem).2
          ∧ g.until_ = s.clk.ns + 1000 * s.host.fw.resTime))
    ∧ (∀ src tag node elem n a, s.fab.asks = [] → s.tagged tag = some a → 0 < n →
      (s.spare a node elem).1 = 0 →
      sends (.reservationRequest src tag node elem n) [] (fun t => t.fab.asks = [⟨src, tag, node, elem, n⟩]
        ∧ t.fab.grants = s.fab.grants))
    ∧ (∀ g, s.fab.grants.find? (fun x => x.id == g.id) = some g → g.out = false → s.fab.asks = [] →
      (g.until_ ≤ s.clk.ns → sends (.reservationExpiry g.id) [] (fun t =>
        t.fab.grants = s.fab.grants.filter (fun x => x.id != g.id)))
      ∧ (s.clk.ns < g.until_ → exec (.reservationExpiry g.id) s = .next s))

/-- Records and reservations between devices (R71, R72, R204). Of this, that a record for a node that the instance does not
have is refused is the model's choice (log entry 85), and so are these readings: a record for an instance whose status word
or completion word is on its way is refused (log entries 95, 108); the places that a request is granted, `min n` of those
spare, and where they lie, rest on the reading of the places set aside (log entry 98); a delayed record and a request for an
ended instance are treated as log entry 62 says. -/
def Obligations.RecordsAndReservations : Prop := Spec.RecordArrivals ∧ Spec.Reservations

/-- R198, R202, R204, R239, R248: a failed lane narrows its port to the widest of x4, x2, x1, and a port with none
leaves the route masks, gives no more answers and hands its records on to other ports; a reachable device is admitted; a
mailbox takes 16 messages and then answers busy; a thermal limit changes nothing but the block's clock. -/
def Obligations.PortsAndMailboxes : Prop :=
  ∀ s : State,
    let quiet (t : State) : Prop := t.insts = s.insts ∧ t.crews = s.crews ∧ t.cohorts = s.cohorts ∧ t.mem = s.mem
    (∀ (port lane : Nat) (p : Port), s.fab.ports[port]? = some p →
      let left := p.lanes.filter (fun l => l != lane)
      let w := min p.width (if 4 ≤ left.length then 4 else if 2 ≤ left.length then 2 else left.length)
      ∃ t, exec (.laneFailure port lane) s = .next t ∧ t.insts = s.insts ∧ t.crews = s.crews ∧ t.cohorts = s.cohorts
        ∧ t.fab.ports = s.fab.ports.set port { lanes := left, width := w }
        ∧ (w ≠ 0 → t.fab.routes = s.fab.routes ∧ t.mem = s.mem)
        ∧ (w = 0 → p.width ≠ 0 → (∀ dev < 1024,
            bitOf (SMap.get 0 t.fab.routes (1024 * (port / 12) + dev)) (port % 12) = false)
          ∧ t.mem.mem = s.mem.mem ∧ t.mem.loads = s.mem.loads ∧ t.mem.stores = s.mem.stores
          ∧ t.mem.remote = s.mem.remote.map (fun r => if r.port = some port then { r with lost := true } else r)
          ∧ t.fab.outbound.map (fun o => { o with port := none }) = s.fab.outbound.map (fun o => { o with port := none })
          ∧ ∀ o ∈ t.fab.outbound, o.held = true ∨ o.port ≠ some port))
    ∧ (∀ dev, dev ≠ s.devid → dev < 1024 → s.reachable dev = true → dev ∉ s.fab.admitted →
      ∃ t, exec (.deviceAdmit dev) s = .next t ∧ quiet t ∧ t.fab.admitted = s.fab.admitted ++ [dev]
        ∧ dev ∉ t.fab.fenced ∧ t.fab.out = s.fab.out)
    ∧ (∀ (i j : Nat) (msg : List Word), i < 8 → j < 8 → msg.length = 4 →
      let q := SMap.get [] s.host.mail (8 * i + j)
      (q.length < 16 → ∃ t, exec (.mailboxSend i j msg) s = .next t ∧ quiet t ∧ t.fab = s.fab
        ∧ ∀ k, SMap.get [] t.host.mail k = if k = 8 * i + j then q ++ [msg] else SMap.get [] s.host.mail k)
      ∧ (16 ≤ q.length → ∃ t, exec (.mailboxSend i j msg) s = .next t ∧ quiet t ∧ t.host = s.host
        ∧ t.fab.out = s.fab.out ++ [.busy i]))
    ∧ ∀ block, ∃ t, exec (.thermalLimit block) s = .next t ∧ quiet t ∧ block ∈ t.host.thermal
      ∧ t.fab.out = s.fab.out ++ [.report 7 block] ∧ t.mmu = s.mmu ∧ t.eng = s.eng ∧ t.clk = s.clk

/-! ## Translation and the fabric's accesses -/

/-- The answer of a page has been met: the entry is gone, every crew of the context that waited for this page alone may
issue again, knows a failed page as PAGEFAIL, and has no other change; memory, cohorts and instances are as before. -/
def Spec.Answered (s t : State) (die page ctx gen : Nat) (fail : Bool) : Prop :=
  t.mem = s.mem ∧ t.cohorts = s.cohorts ∧ t.insts = s.insts
    ∧ (∀ e ∈ t.mmu.merge, ¬ (e.die = die ∧ e.page = page ∧ e.ctx = ctx ∧ e.gen = gen))
    ∧ ∀ u i c h, s.crew? u i = some c → s.cohort? u = some h → h.ctx = ctx → c.w.pages = [page] →
      ∃ d, t.crew? u i = some d ∧ d.w.pages = [] ∧ d.w.kind = .none ∧ d.r = c.r ∧ d.m = c.m ∧ d.g = c.g
        ∧ d.x.lp = c.x.lp ∧ (fail = true → ∀ a, d.x.xout.find? (fun e => e.1 == page && e.2.1 == a)
          = some (page, a, .fault 6))

/-- R129, R132 to R138, R208: an outcome is what the owning die's TLB or walk gives; an answer that matches an entry of
the merge table ends it and lets its waiters go on; one that matches none is counted and changes nothing else; an
outcome that is a page request joins the table at once; a killed context's generation advances, its entries go and its
waiters are free. Of this, where page tables lie and what a killed context leaves are the model's (log entries 7, 48).
-/
def Obligations.PageAnswers : Prop :=
  ∀ (s : State) (page ctx : Nat), (∀ e ∈ s.mem.log, e.page ≠ page) → s.mmu.served = [] → s.host.faultQ = [] →
    (∀ e ∈ s.mmu.merge, e.open_ = true) →
    (∀ (die gen : Nat) (fail : Bool),
      ((∃ e ∈ s.mmu.merge, e.die = die ∧ e.page = page ∧ e.ctx = ctx ∧ e.gen = gen) →
        ∃ t, exec (.pageAnswer die page ctx gen fail) s = .next t ∧ Spec.Answered s t die page ctx gen fail)
      ∧ ((∀ e ∈ s.mmu.merge, ¬ (e.die = die ∧ e.page = page ∧ e.ctx = ctx ∧ e.gen = gen)) →
        exec (.pageAnswer die page ctx gen fail) s
          = .next { s with mmu := { s.mmu with late := s.mmu.late.set die (s.mmu.late.getD die 0 + 1) } }))
    ∧ (∀ ok gen, s.mmu.pris.find? (fun p => p.1 == ctx && p.2.2 == page) = some (ctx, gen, page) →
      (∃ e ∈ s.mmu.merge, e.die = 0 ∧ e.page = page ∧ e.ctx = ctx ∧ e.gen = gen) →
      ∃ t, exec (.priResponse ctx page ok) s = .next t ∧ Spec.Answered s t 0 page ctx gen (!ok)
        ∧ t.mmu.pris = s.mmu.pris.erase (ctx, gen, page) ∧ t.mmu.filter = s.mmu.filter)
    ∧ (∀ ok, (∀ p ∈ s.mmu.pris, p.1 ≠ ctx ∨ p.2.2 ≠ page) → exec (.priResponse ctx page ok) s
      = .next { s with mmu := { s.mmu with late := s.mmu.late.set 0 (s.mmu.late.getD 0 0 + 1) } })
    ∧ (∀ bus w, page / 2 ^ 36 % 4 = 2 → ∃ t, exec (.atsTranslationResponse ctx page bus w) s = .next t
      ∧ t.mem = s.mem ∧ t.crews = s.crews ∧ t.insts = s.insts
      ∧ ∀ c, s.ctx? ctx = some c → c.rootH = 0 → (∀ e ∈ s.mmu.tlb, e.ctx ≠ ctx ∨ e.page ≠ page) → page < 2 ^ 48 →
        t.xlate ctx (pageVa page) .load false = some (match bus with
          | none => .req 0
          | some b => .home (2 * 2 ^ 56 + 2 ^ 16 * b), false))
    ∧ (∀ c, s.ctx? ctx = some c → ∃ t, exec (.contextKill ctx) s = .next t ∧ t.insts = s.insts
      ∧ t.mem.mem = s.mem.mem ∧ t.ctx? ctx = some { c with gen := (c.gen + 1) % 2 ^ 16 }
      ∧ (∀ n, n ≠ ctx → t.ctx? n = s.ctx? n) ∧ t.mmu.merge = s.mmu.merge.filter (fun e => e.ctx != ctx)
      ∧ ∀ u i d h, s.crew? u i = some d → s.cohort? u = some h →
        (h.ctx ≠ ctx → t.crew? u i = some d)
        ∧ (h.ctx = ctx → d.w.pages = [page] → (∃ e ∈ s.mmu.merge, e.ctx = ctx ∧ e.page = page) →
          ∃ d', t.crew? u i = some d' ∧ d'.w.pages = [] ∧ d'.w.kind = .none ∧ d'.r = d.r ∧ d'.m = d.m ∧ d'.g = d.g))
    ∧ ∀ u i c h a x m rewalk, s.crew? u i = some c → s.cohort? u = some h → pageDev page = s.devid →
      c.x.xwait = [(page, a)] → s.xlate h.ctx (pageVa page) a rewalk = some (x, m) →
      ∃ t d, exec (.translationOutcome u i page rewalk) s = .next t ∧ t.crew? u i = some d ∧ d.x.xwait = []
        ∧ d.x.xout = (page, a, x) :: c.x.xout ∧ d.r = c.r ∧ d.w = c.w ∧ d.g = c.g ∧ t.mem = s.mem ∧ t.insts = s.insts
        ∧ ∀ k, x = .req k → ∃ e ∈ t.mmu.merge, e.die = pageDie page ∧ e.page = page ∧ e.ctx = h.ctx ∧ e.gen = s.genOf h.ctx

/-- R131, R208: a shootdown and an ATS invalidation wait while an access translated with the page's entry is on its way,
and then leave no entry of the page in the TLB or any filter, and every other entry. R140: a finished copy leaves the
new frame with the old one's bytes and the page written to it, and ends the page's request. -/
def Spec.ShootdownsAndCopies : Prop :=
  ∀ (s : State) (ctx page : Nat),
    let drops (i : Instr) (P : State → Prop) : Prop :=
      (s.pageBusy ctx page = true → exec i s = .next s)
      ∧ (s.pageBusy ctx page = false → ∃ t, exec i s = .next t ∧ t.mem = s.mem ∧ t.insts = s.insts
        ∧ t.mmu.tlb = s.mmu.tlb.filter (fun e => !(e.ctx == ctx && e.page == page))
        ∧ t.mmu.filter = s.mmu.filter.filter (fun e => !(e.ctx == ctx && e.page == page)) ∧ P t)
    drops (.shootdown (pageDie page) ctx page) (fun t => t.mmu.ats = s.mmu.ats)
    ∧ drops (.atsInvalidation ctx page) (fun t => ∀ e ∈ t.mmu.ats, e.ctx ≠ ctx ∨ e.page ≠ page)
    ∧ ∀ (die : Nat) (w : Cow) (c : Ctx), s.mmu.cows = [w] → w.die = die → w.ctx = ctx → w.page = page →
      s.ctx? ctx = some c → s.pageBusy ctx page = false → (∀ e ∈ s.mem.log, e.page ≠ page) → s.mmu.served = [] →
      s.host.faultQ = [] → (∀ e ∈ s.mmu.merge, e.open_ = true) →
      let d := vaDie (pageVa page)
      let pte := tableSpace d * 2 ^ 56 + pteAddr s (tableSpace d) (vaOff (pageVa page)) levels (c.root d).toNat
      let from_ := d * 2 ^ 56 + w.old
      let to_ := d * 2 ^ 56 + w.new_
      let old := s.readKey pte 8
      Memory.wf s.mem.mem = true → (pte + 8 ≤ to_ ∨ to_ + 65536 ≤ pte) → w.new_ < 2 ^ 56 → w.new_ % 2 ^ 16 = 0 →
      ∃ t, exec (.cowCopyDone die ctx page) s = .next t ∧ t.mmu.cows = []
        ∧ (∀ k < 65536, t.byteAt (to_ + k) = s.byteAt (from_ + k))
        ∧ (∀ i < 64, (t.readKey pte 8).getLsbD i = if i = 2 then true else if i = 7 then false
            else if 16 ≤ i ∧ i < 56 then w.new_.testBit i else old.getLsbD i)
        ∧ (∀ k, (k < to_ ∨ to_ + 65536 ≤ k) → (k < pte ∨ pte + 8 ≤ k) → t.byteAt k = s.byteAt k)
        ∧ (∀ e ∈ t.mmu.tlb, e.ctx ≠ ctx ∨ e.page ≠ page)
        ∧ ∀ e ∈ t.mmu.merge, ¬ (e.die = die ∧ e.page = page ∧ e.ctx = ctx ∧ e.gen = c.gen)

/-- R137, R199, R360: a request of another device whose page is allowed is served at its home like a local one, and
answered with the value there, the completion of a store, or the value before an atomic; a watch is answered at once and
held. One whose home is host memory goes on to the host, with the PASID of its context (R124, R207). One that is not
allowed is answered with its failure, and no byte changes. -/
def Spec.RequestsServed : Prop :=
  ∀ (s : State) (src rid ctx d key n : Nat) (va : Word) (c : Ctx) (m : Bool), s.route va = .own d → s.ctx? ctx = some c →
    let acc (k : ReqKind) : Acc := match k with
      | .load _ => .load
      | .store _ _ => .store
      | .atomic _ _ _ _ => .atomic
    let k0 := key + va.toNat % 2 ^ 16
    let home (k : ReqKind) : Prop := s.xlate ctx va (acc k) false = some (.home key, m) ∧ k0 / 2 ^ 56 ≠ 2
    let ev (k : ReqKind) : Instr := .remoteRequest src rid ctx c.gen va k
    let answers (i : Instr) (v : Word) (fail : Bool) (P : State → Prop) : Prop := ∃ t, exec i s = .next t
      ∧ t.fab.out.getLast? = some (.answer src rid v fail) ∧ t.insts = s.insts ∧ t.cohorts = s.cohorts ∧ P t
    let same (t : State) : Prop := t.mem.mem = s.mem.mem
    let stored (v : Word) (t : State) : Prop := ∀ k, t.byteAt k
      = if k0 ≤ k ∧ k < k0 + n then BitVec.ofNat 8 (v.toNat / 256 ^ (k - k0)) else s.byteAt k
    (n ≤ 8 → s.poisoned k0 n = false → home (.load n) → answers (ev (.load n)) (s.readKey k0 n) false same)
    ∧ (∀ vs, n ≤ 8 ∨ n % 8 = 0 → home (.store n vs) → answers (ev (.store n vs)) 0 false (fun t => ∀ k, t.byteAt k
        = if k0 ≤ k ∧ k < k0 + n then BitVec.ofNat 8 ((vs.getD ((k - k0) / 8) 0).toNat / 256 ^ ((k - k0) % 8)) else s.byteAt k))
    ∧ (∀ op x y, n ≤ 8 → s.poisoned k0 n = false → home (.atomic op n x y) →
      answers (ev (.atomic op n x y)) (s.readKey k0 n) false (stored (atomNew op n (s.readKey k0 n) x y)))
    ∧ (∀ k, s.xlate ctx va (acc k) false = some (.home key, m) → k0 / 2 ^ 56 = 2 → ∃ t r, exec (ev k) s = .next t
      ∧ t.fab.out = s.fab.out ++ [.hostRequest (s.pasidOf ctx) r.rid (k0 % 2 ^ 56) k] ∧ t.mem.remote = s.mem.remote ++ [r]
      ∧ r.who = .served src rid ctx k false ∧ r.key = some k0 ∧ r.sent = s.clk.ns ∧ same t)
    ∧ (∀ k f, s.xlate ctx va (acc k) false = some (.fault f, m) → answers (ev k) (BitVec.ofNat 64 f) true same)
    ∧ (s.poisoned k0 8 = false → home (.load 8) → answers (.waitaWatch src rid ctx c.gen va) (s.readKey k0 8) false
      (fun t => same t ∧ ⟨src, rid, k0⟩ ∈ t.fab.watches))

/-- R199 to R201, R39: the words of an answer to a load are kept until the last has come, which fills the register of its
part with that part's word; the timeout, once it has passed, fills it with all ones and marks XTO; a store's answer or timeout ends the store, the timeout with XSTO or XAU. A response
that nothing waits for any longer is counted and changes nothing else, and one by a port that has gone down does not
come; before the timeout nothing happens. -/
def Spec.RemoteAnswers : Prop :=
  ∀ (s : State) (r : Remote) (c : Crew), s.mem.remote = [r] → s.crew? c.uid c.idx = some c → c.w = {} →
    r.lost = false → r.late = false → r.key = none →
    let due : Prop := r.sent + 1000 * s.host.fw.timeout ≤ s.clk.ns
    let dev := if vaDev r.va = s.devid then s.devid else vaDev r.va
    let marks (bit : Nat) (c' : Crew) : Prop := bitOf c'.g.xsr bit = true
      ∧ (c.g.xsr = 0 → c'.g.xdev = dev) ∧ (∀ j, j ≠ bit → bitOf c'.g.xsr j = bitOf c.g.xsr j)
    let ends (i : Instr) (P : State → Crew → Prop) : Prop := ∃ t c', exec i s = .next t ∧ t.crew? c.uid c.idx = some c'
      ∧ t.mem.mem = s.mem.mem ∧ t.mem.remote = [] ∧ c'.r.pc = c.r.pc ∧ c'.m = c.m ∧ c'.pend = c.pend ∧ P t c'
    let vec (k : Nat) (v : Word) (c' : Crew) : Prop := ∀ j, SMap.get 0 c'.r.v j = if j = k then v else SMap.get 0 c.r.v j
    (∀ (l : Load) (p : Part) (k w : Nat), s.mem.loads = [l] → l.parts = [p] → l.uid = c.uid → l.idx = c.idx →
      l.xto = false → r.who = .part l.id p.lane p.dst → p.remote = some r.rid → p.va = r.va + BitVec.ofNat 64 (8 * w) →
      w < 64 → p.dst = .v k → k < 32 * c.size → c.g.exited = false →
      (∀ v, (r.n ≤ 8 * (r.got.length + 1) → ends (.remoteResponse r.rid v false) (fun t c' => t.mem.loads = []
          ∧ vec k (lowBytes p.n ((r.got ++ [v]).getD w 0)) c' ∧ c'.g = c.g))
        ∧ (8 * (r.got.length + 1) < r.n → exec (.remoteResponse r.rid v false) s
          = .next { s with mem := { s.mem with remote := [{ r with got := r.got ++ [v], ans := none }] } }))
      ∧ (due → ends (.remoteTimeout r.rid) (fun t c' => t.mem.loads = []
        ∧ vec k (lowBytes p.n (BitVec.allOnes 64)) c' ∧ marks 0 c')))
    ∧ (∀ e : Store, s.mem.stores = [e] → e.uid = c.uid → e.idx = c.idx → e.xto = false → r.who = .store e.id →
      e.remote = some r.rid → e.va = r.va → e.dst = .none → c.g.exited = false → vaPage e.va ∉ c.h.w.pages →
      (∀ v, ends (.remoteResponse r.rid v false) (fun t c' => t.mem.stores = [] ∧ c' = c))
      ∧ (due → ends (.remoteTimeout r.rid) (fun t c' => t.mem.stores = [] ∧ c'.r = c.r
        ∧ marks (if e.op.isSome then 2 else 1) c')))
    ∧ (¬ due → exec (.remoteTimeout r.rid) s = .next s)
    ∧ (∀ v fail, let gone : State := { s with mem := { s.mem with remote := [{ r with lost := true }] } }
      exec (.remoteResponse r.rid v fail) gone = .next gone)
    ∧ (∀ v, let told : State := { s with mem := { s.mem with remote := [{ r with late := true }] } }
      exec (.remoteResponse r.rid v false) told = .next { told with
        host := { s.host with fw := { s.host.fw with lateResponses := s.host.fw.lateResponses + 1 } } })
    ∧ ∀ rid v fail, rid ≠ r.rid → exec (.remoteResponse rid v fail) s = .next { s with
        host := { s.host with fw := { s.host.fw with lateResponses := s.host.fw.lateResponses + 1 } } }

/-- R224, R360: the home's answer to a watch says whether the condition of its WAITA holds; the watch goes out again after
2 µs, not before; of an evicted crew the die examines a word of its own. -/
def Spec.Watches : Prop :=
  ∀ (s : State) (r : Remote) (c : Crew) (k : WCmp) (va w : Word), s.mem.remote = [r] → s.crew? c.uid c.idx = some c →
    c.w.kind = .waita k va w → (∃ hnd, r.who = .waita c.uid c.idx hnd) →
    let holds (v : Word) : Bool := match k with
      | .eq => v == w
      | .ne => v != w
      | .gen => w.toNat ≤ v.toNat
      | .ltn => v.toNat < w.toNat
    let woken (t : State) (v : Word) : Prop := t.crew? c.uid c.idx = some { c with w := { c.w with wake := holds v } }
      ∧ t.insts = s.insts ∧ t.cohorts = s.cohorts ∧ t.mem.mem = s.mem.mem
    (∀ v, r.lost = false → r.late = false → r.key = none → ∃ t, exec (.waitaWatchAnswer r.rid v) s = .next t ∧ woken t v
      ∧ t.mem.remote = [{ r with ans := some (v, false), n := 0 }])
    ∧ (∀ h, s.cohort? c.uid = some h → r.sent + 2000 ≤ s.clk.ns → r.late = false → r.key = none →
      let port := s.accessPort (dieOf (h.coreOf c.idx)) (vaDev r.va) r.va
      ∃ t, exec (.waitaWatchRenew r.rid) s = .next t ∧ t.crews = s.crews ∧ t.mem.mem = s.mem.mem
        ∧ t.fab.out = s.fab.out ++ [.watch (vaDev r.va) (port.getD 0) r.rid h.ctx (s.genOf h.ctx) r.va]
        ∧ t.mem.remote = [{ r with n := if r.n = 0 then 8 else r.n, sent := if r.n = 0 then s.clk.ns else r.sent
                                   port := port, lost := false }])
    ∧ (s.clk.ns < r.sent + 2000 → exec (.waitaWatchRenew r.rid) s = .next s)
    ∧ (∀ h slot d key, s.cohort? c.uid = some h → h.ev = .evicted slot → s.route va = .own d →
      s.xlateNow h.ctx va .load = .home key → key / 2 ^ 56 ≠ 2 → ∃ t, exec (.wakeConditionRecheck c.uid c.idx) s = .next t
        ∧ woken t (s.readKey (key + va.toNat % 2 ^ 16) 8))

/-- Requests served here and answers that arrive (R19, R39, R137, R199, R201, R224, R360). Of this, the form of
messages between devices is the model's (log entry 45). -/
def Obligations.RemoteTraffic : Prop := Spec.RequestsServed ∧ Spec.RemoteAnswers ∧ Spec.Watches

/-- R148, R149: SHINV makes its release and hands an invalidation to at most 8 devices, while both Marl caches drop
the tensor; each device relays it to its children and acknowledges when they have and its own sharded accesses that had
resolved with the dropped entries are done; the root then writes the completion word, full. A device silent for 100 µs is fenced and its children are asked
directly. Of this, the shape of the tree, and that entries of every context go and are waited for, are the model's (log
entries 34, 112). -/
def Obligations.ShardInvalidation : Prop :=
  ∀ s : State,
    let dropped (tensor : Nat) (t : State) : Prop :=
      t.mmu.marl = s.mmu.marl.filter (fun e => e.2.1 % 4096 != tensor)
    (∀ (c : Crew) (h : Cohort), s.Issues c h → c.NoStep → c.fail = none → c.h.w.marl = [] →
      (∀ r ∈ s.mem.remote, r.who ≠ .marl c.uid c.idx) → ∀ d a b : Nat,
      let off := (c.sr a).toNat
      let tensor := (c.sr d).toNat % 4096
      let kids := s.fab.admitted.take 8
      off % 8 = 0 → off + 8 ≤ 1024 * h.sh.kib → s.release c h 4 = .done →
      (s.mmu.shinvs.filter (fun v => v.root.isSome && v.die == dieOf (h.coreOf c.idx))).length < 16 →
      s.Sends c (.shinv d a b) (fun t => dropped tensor t ∧ t.fab.out = s.fab.out ++ kids.map (fun k =>
          .shinv k s.fresh.id tensor)
        ∧ ∃ v : Shinv, t.mmu.shinvs = s.mmu.shinvs ++ [v] ∧ v.tensor = tensor ∧ v.root = some (c.uid, off, c.sr b)
          ∧ v.wait.map (·.1) = kids ∧ v.local_ = false))
    ∧ (∀ parent rid tensor children, ∃ t, exec (.shinvRelay parent rid tensor children) s = .next t ∧ dropped tensor t
      ∧ (∀ u i c, s.crew? u i = some c → ∃ d, t.crew? u i = some d
        ∧ { d with w := { d.w with stale := c.w.stale }, h := { d.h with w := { d.h.w with stale := c.h.w.stale } } } = c)
      ∧ t.mem = s.mem ∧ t.fab.out = s.fab.out ++ children.map (fun k => .shinv k s.fresh.id tensor)
      ∧ ∃ v : Shinv, t.mmu.shinvs = s.mmu.shinvs ++ [v] ∧ v.parent = some (parent, rid) ∧ v.wait.map (·.1) = children)
    ∧ ∀ v : Shinv, s.mmu.shinvs = [v] →
      let old (tensor : Option Nat) (res : Nat) : Prop := tensor = some v.tensor ∧ res ≤ v.id
      let unit (w : WaitSt) : Prop := w.res ≤ v.id ∧ ∃ e ∈ w.marl, e.1 % 4096 = v.tensor
      let busy : Prop := (∃ l ∈ s.mem.loads, old l.tensor l.res) ∨ (∃ e ∈ s.mem.stores, old e.tensor e.res)
        ∨ (∃ e ∈ s.mem.log, old e.tensor e.res) ∨ ∃ c ∈ s.crews, unit c.w ∨ unit c.h.w
      (∀ u off w h, v.root = some (u, off, w) → v.wait = [] → ¬ busy → s.cohort? u = some h →
        h.ev = .placed → (∃ c ∈ s.crewsOf u, c.g.exited = false) →
        ∃ t, exec (.shinvAck v.id s.devid) s = .next t ∧ t.mmu.shinvs = [] ∧ t.mem = s.mem
          ∧ t.cohort? u = some ((h.setSp off w).setFull off true))
      ∧ (∀ p rid child x, v.root = none → v.parent = some (p, rid) → v.wait = [(child, x)] → v.local_ = true →
        child ≠ s.devid → ∃ t, exec (.shinvAck v.id child) s = .next t ∧ t.mmu.shinvs = []
          ∧ t.fab.out = s.fab.out ++ [.shinvAck p rid] ∧ t.crews = s.crews ∧ t.mem = s.mem)
      ∧ (busy → exec (.shinvAck v.id s.devid) s = .next s)
      ∧ (∀ child x grand, v.wait = [(child, x)] →
        (x + 100000 ≤ s.clk.ns → grand ≠ [] → ∃ t v', exec (.shinvFence v.id child grand) s = .next t
          ∧ child ∈ t.fab.fenced ∧ child ∉ t.fab.admitted ∧ t.mmu.shinvs = [v']
          ∧ v'.wait = grand.map (fun g => (g, s.clk.ns)) ∧ v'.root = v.root
          ∧ t.fab.out = s.fab.out ++ grand.map (fun g => .shinv g v.id v.tensor) ++ [.fence child v.tensor])
        ∧ (s.clk.ns < x + 100000 → exec (.shinvFence v.id child grand) s = .next s))

/-- R244: an uncorrectable error poisons its line, a write of the whole line clears it, and a corrected one changes nothing
but its count. -/
def Spec.MemoryErrors : Prop :=
  ∀ (s : State) (line : Nat),
    (∃ t, exec (.uncorrectableError line) s = .next t ∧ t.mem.mem = s.mem.mem ∧ t.crews = s.crews ∧ t.insts = s.insts
      ∧ ∀ k n, 0 < n → t.poisoned k n = (s.poisoned k n || (decide (64 * line < k + n) && decide (k < 64 * line + 64))))
    ∧ (∃ t, exec .correctedError s = .next t ∧ t.mem = s.mem ∧ t.crews = s.crews ∧ t.insts = s.insts ∧ t.mmu = s.mmu
      ∧ t.fab = s.fab ∧ t.eng = s.eng ∧ t.cohorts = s.cohorts)
    ∧ ∀ bs : List Byte, 64 ≤ bs.length → ∀ k n, 64 * line ≤ k → k + n ≤ 64 * line + 64 → 0 < n →
      (s.writeKey (64 * line) bs).poisoned k n = false

/-- Shootdowns, copies on write and memory errors (R131, R140, R208, R244). Of this, the poison of a copied frame and
the views after a shootdown are the model's (log entries 47, 50), and so is the reading that says where the page's PTE lies,
and with it which bytes but the frame's change (log entry 7). -/
def Obligations.CopiesAndMemoryErrors : Prop := Spec.ShootdownsAndCopies ∧ Spec.MemoryErrors

/-! ## Firmware, attestation and the host queues -/

/-- R243, R12 to R14: the one reset leaves no cohort, instance, item or access, memory of both dies zero, the firmware
unlocked and unloaded, and no walker; host memory and the repair record stay. Of this, what RESET keeps is the model's
(log entries 2, 3, 67). -/
def Obligations.Reset : Prop :=
  (∀ s : State, ∃ t, exec .reset s = .next t ∧ t.crews = [] ∧ t.cohorts = [] ∧ t.insts = [] ∧ t.eng = {} ∧ t.mmu = {}
      ∧ t.mem.loads = [] ∧ t.mem.stores = [] ∧ t.mem.log = [] ∧ t.clk = {} ∧ t.host.repair = s.host.repair
      ∧ t.host.fw.stat = 0 ∧ t.host.fw.lock = false ∧ t.host.fw.len = 0 ∧ t.walkerOn = false
      ∧ (∀ k, k / 2 ^ 56 ≠ 2 → t.byteAt k = 0) ∧ (∀ k, k / 2 ^ 56 = 2 → t.byteAt k = s.byteAt k)
      ∧ (∀ c, c ∈ t.sched.disabled ↔ c ∈ repairDisabled s.host.repair) ∧ t.host.applied = s.host.repair
      ∧ ((s.host.repair.cores = [] ∨ ∃ x, s.host.repair.cores = [x]) → t.sched.disabled = []))
    ∧ State.reset.crews = [] ∧ State.reset.insts = [] ∧ (∀ k, State.reset.byteAt k = 0)
    ∧ State.reset.host.fw.stat = 0 ∧ State.reset.host.fw.lock = false ∧ State.reset.clk.ns = 0
    ∧ State.reset.eng.wbOwner = [] ∧ (∀ off, State.reset.bar2 off = 0)

/-- R240, R241, R243, R18: the image is written through the load window and its length to FWLEN until FWLOCK is set, and
neither after it; a good image brings the device up with the configuration record, a bad one leaves it down with FWMAJ
0x0F. Other offsets of BAR 2 ignore writes. -/
def Spec.FirmwareLoad : Prop :=
  ∀ s : State,
    let fw := s.host.fw
    let only (i : Instr) (f : Fw) : Prop := exec i s = .next { s with host := { s.host with fw := f } }
    (∀ v : Word, only (.fwlockWrite v)
      (if fw.lock = false ∧ v.getLsbD 0 = true then { fw with lock := true, stat := 1 } else fw))
    ∧ (∀ v : Word, (fw.lock = false → only (.registerWrite 0x1010 v) { fw with len := v.toNat % 2 ^ 29 })
      ∧ (fw.lock = true → exec (.registerWrite 0x1010 v) s = .next s)
      ∧ ∀ off, off < 0x10000000 → off ≠ 0x1000 → off ≠ 0x1010 → exec (.registerWrite off v) s = .next s)
    ∧ (∀ off (data : List Byte), (fw.lock = true → exec (.loadWindowWrite off data) s = .next s)
      ∧ (fw.lock = false → fw.stat = 0 → off + data.length ≤ 2 ^ 28 → ∃ t, exec (.loadWindowWrite off data) s = .next t
        ∧ t.host = s.host ∧ t.crews = s.crews
        ∧ ∀ k, t.byteAt (carveOut 0 + k) = if off ≤ k ∧ k < off + data.length then data.getD (k - off) 0
            else s.byteAt (carveOut 0 + k)))
    ∧ ∀ devid porten membytes : Nat, fw.stat = 1 →
      let good : Prop := 1 ≤ fw.len ∧ fw.len ≤ 2 ^ 28 ∧ Config.signatureVerifies s.image = true
      let word0 (major dev : Nat) : Word := BitVec.ofNat 64 (0x2480 * 2 ^ 48 + 0xB1 * 2 ^ 40 + major * 2 ^ 32 + dev * 2 ^ 16)
      let ends (stat : Nat) (w0 : Word) (P : State → Prop) : Prop :=
        ∃ t, exec (.firmwareVerifyDone devid porten membytes) s = .next t ∧ t.host.fw.stat = stat
          ∧ t.bar2 0 = w0 ∧ t.insts = s.insts ∧ P t
      (good → membytes = s.host.applied.memBytes → ends 2 (word0 1 (devid % 1024)) (fun t => t.walkerOn = true
        ∧ t.devid = devid % 1024 ∧ t.host.heads = List.replicate 8 0
        ∧ t.bar2 48 = BitVec.ofNat 64 s.host.applied.memBytes
        ∧ (s.host.applied.whole = true → t.bar2 48 = 0xFFE0000000)
        ∧ ∀ k < fw.len, t.byteAt (carveOut 1 + k) = s.byteAt (carveOut 0 + k)))
      ∧ (¬ good → ends 3 (word0 15 0) (fun t => t.walkerOn = s.walkerOn ∧ t.bar2 48 = 0 ∧ t.mem = s.mem))

/-- R242: each of the seven SPDM requests is answered once, GET_MEASUREMENTS with the eight registers, and changes nothing
else. What else an answer holds is free (log entry 6). -/
def Spec.Attestation : Prop :=
  ∀ (s : State) (nonce : List Byte),
    let answers (i : Instr) (known : List Byte) : Prop := ∃ t more, exec i s = .next t
      ∧ t.fab.out = s.fab.out ++ [.spdm (known ++ more)] ∧ t.insts = s.insts ∧ t.crews = s.crews ∧ t.mem = s.mem
      ∧ t.host.fw.meas = s.host.fw.meas ∧ t.host.fw.config = s.host.fw.config
    answers .getVersion [] ∧ answers .getCapabilities [] ∧ answers .negotiateAlgorithms [] ∧ answers .getDigests []
    ∧ answers .getCertificate [] ∧ answers (.challenge nonce) []
    ∧ answers (.getMeasurements nonce) s.host.fw.meas.flatten

/-- Loading the device and the replies of its identity (R18, R240, R241, R242, R243). -/
def Obligations.FirmwareAndAttestation : Prop := Spec.FirmwareLoad ∧ Spec.Attestation

/-- The walker stands at queue `qsb`, which has a packet of well-formed words `w` outside every INDIRECT buffer. -/
def Spec.AtPacket (s : State) (qsb : Word) (w : List Word) : Prop :=
  s.walkerOn = true ∧ (∃ v, s.host.visit = some v ∧ v.qsb = qsb ∧ 0 < v.left) ∧ s.qWork qsb = true ∧ s.qStack qsb = []
    ∧ s.qReads qsb (s.packetVa qsb) 16 = .ok w ∧ malformedBy w 0 = none

/-- The packet is processed: RPTR has advanced by one, STATE is 0, and the visit has one packet less to process. -/
def Spec.Processed (s t : State) (qsb : Word) : Prop :=
  t.qRptr qsb = (s.qRptr qsb + 1) % 2 ^ 32 ∧ t.qState qsb = 0
    ∧ t.host.visit.map (fun v => (v.qsb, v.left + 1)) = s.host.visit.map (fun v => (v.qsb, v.left))

/-- The packet is not processed: RPTR is as it was, and the visit is over. -/
def Spec.Held (s t : State) (qsb : Word) : Prop :=
  t.qRptr qsb = s.qRptr qsb ∧ t.insts = s.insts ∧ ∀ v, t.host.visit = some v → v.left = 0

/-- R229, R232, R238: what the walker does with a packet of each type but GRAPH_LAUNCH, its words at homes of this device. -/
def Spec.Packets : Prop :=
  ∀ (s : State) (qsb : Word) (w : List Word) (key : Nat), Spec.AtPacket s qsb w →
    let x (i : Nat) : Word := w.getD i 0
    let type := (x 0).toNat % 256
    let clear : Prop := key + 8 ≤ rawKey qsb ∨ rawKey qsb + 64 ≤ key
    let runs (i : Instr) (P : State → Prop) : Prop := ∃ t, exec i s = .next t ∧ t.crews.length = s.crews.length ∧ P t
    let writes (i : Instr) : Prop := runs i (fun t => Spec.Processed s t qsb ∧ t.insts = s.insts
      ∧ ∀ k, key ≤ k → k < key + 8 → t.byteAt k = BitVec.ofNat 8 ((x 2).toNat / 256 ^ (k - key)))
    (type = 0 → runs (.packetNop qsb) (fun t => Spec.Processed s t qsb ∧ t.insts = s.insts))
    ∧ (type = 2 → s.devWord (.queue qsb) (s.qsbCtx qsb) (x 1) .store = .ok key → key / 2 ^ 56 ≠ 2 → clear →
      ((x 0).getLsbD 8 = false → writes (.writeValue qsb))
      ∧ ((x 0).getLsbD 8 = true → (∀ a ∈ s.insts, a.l.qsb ≠ qsb) → writes (.writeValueDone qsb))
      ∧ ((x 0).getLsbD 8 = true → (∃ a ∈ s.insts, a.l.qsb = qsb) →
        runs (.writeValueDone qsb) (fun t => Spec.Held s t qsb ∧ t.mem = s.mem)))
    ∧ (type = 3 → s.devWord (.queue qsb) (s.qsbCtx qsb) (x 1) .load = .ok key → key / 2 ^ 56 ≠ 2 →
      let v := (s.readKey key 8 &&& x 3).toNat
      let y := (x 2).toNat
      let holds : Prop := match (x 0).toNat / 256 % 8 with
        | 0 => v = y
        | 1 => v ≠ y
        | 2 => y ≤ v
        | _ => v < y
      (holds → runs (.waitValue qsb) (fun t => Spec.Processed s t qsb ∧ t.insts = s.insts))
      ∧ (¬ holds → runs (.waitValue qsb) (fun t => Spec.Held s t qsb ∧ t.qState qsb = 1)))
    ∧ (type = 4 → runs (.indirect qsb) (fun t => t.qStack qsb = [(x 1, (x 2).toNat % 2 ^ 32)]
      ∧ t.packetVa qsb = x 1 ∧ t.qRptr qsb = s.qRptr qsb ∧ t.host.visit = s.host.visit ∧ t.mem.mem = s.mem.mem))

/-- R229, R230: with no visit in progress the walker goes first to the first queue of run list 7 that holds a packet, for
at most 8 packets; before bring-up is over it goes nowhere. -/
def Spec.WalkerVisits : Prop :=
  ∀ (s : State) (q : Word), q ≠ 0 →
    (s.walkerOn = true → s.host.visit = none → s.host.heads.getD 7 0 = q → s.qWork q = true →
      ∃ t, exec (.walkerVisit q) s = .next t ∧ t.host.visit = some ⟨7, q, 8⟩ ∧ t.mem = s.mem ∧ t.insts = s.insts
        ∧ t.crews = s.crews ∧ t.host.wgen = s.host.wgen)
    ∧ (s.walkerOn = false → exec (.walkerVisit q) s = .next s)
    ∧ (∀ v, s.host.visit = some v → 0 < v.left → s.qWork v.qsb = true → v.qsb ∉ s.host.stalled →
      exec (.walkerVisit q) s = .next s)

/-- The walker and the packets it processes (R229, R230, R232, R238). Of this, the order of visits and the addresses
of QSBs are the model's (log entries 9, 60). -/
def Obligations.WalkersAndPackets : Prop := Spec.Packets ∧ Spec.WalkerVisits

/-- Bits [hi:lo] of a word. -/
def Spec.bits (v : Word) (hi lo : Nat) : Nat := v.toNat / 2 ^ lo % 2 ^ (hi + 1 - lo)

/-- The node that a descriptor of 16 words describes (R45). -/
def Spec.NodeIs (d : Nat → Word) (n : Node) : Prop :=
  let b (i hi lo : Nat) : Nat := Spec.bits (d i) hi lo
  n.entry = d 0 ∧ n.const = d 1 ∧ n.handler = d 8
    ∧ n.ingress = (b 2 39 39 == 1) ∧ n.replay = (b 2 35 35 == 1) ∧ n.early = (b 2 34 34 == 1)
    ∧ n.pbias = (if b 2 38 36 < 4 then (b 2 38 36 : Int) else (b 2 38 36 : Int) - 8)
    ∧ n.maxdepth = b 2 33 28 ∧ n.alast = b 2 27 12 ∧ n.ncrew = b 2 10 4 + 1 ∧ n.kind = b 2 3 0
    ∧ (∀ s < 8, n.sstart.getD s 0 = b 3 (8 * s + 7) (8 * s) ∧ n.ireg.getD s 0 = b 4 (7 * s + 6) (7 * s))
    ∧ n.resident = b 5 39 28 ∧ n.tiles = b 5 27 21 ∧ n.scratch = b 5 20 10 ∧ n.budget = b 5 9 0
    ∧ n.linger = b 6 63 32 ∧ n.cap = b 6 20 0 ∧ n.pcount = b 7 47 32 ∧ n.runlimit = b 7 31 0
    ∧ (∀ j < 16, n.out.getD j 0 = b (9 + j / 4) (16 * (j % 4) + 15) (16 * (j % 4)))
    ∧ ∀ j < 4, n.pred.getD j 0 = b 13 (16 * j + 15) (16 * j)

/-- What R47 and R46 reject in the descriptor of node `k` in an image of `nn` nodes. -/
def Spec.NodeBad (d : Nat → Word) (nn k : Nat) : Prop :=
  let b (i hi lo : Nat) : Nat := Spec.bits (d i) hi lo
  let crews := b 2 10 4 + 1
  let start (s : Nat) : Nat := if s = 8 then crews else b 3 (8 * s + 7) (8 * s)
  let ireg (s : Nat) : Nat := b 4 (7 * s + 6) (7 * s)
  let out (j : Nat) : Nat := b (9 + j / 4) (16 * (j % 4) + 15) (16 * (j % 4))
  let pred (j : Nat) : Nat := b 13 (16 * j + 15) (16 * j)
  b 2 63 40 ≠ 0 ∨ b 2 11 11 ≠ 0 ∨ b 4 63 56 ≠ 0 ∨ b 5 63 40 ≠ 0 ∨ b 6 31 21 ≠ 0 ∨ b 7 63 48 ≠ 0 ∨ d 14 ≠ 0 ∨ d 15 ≠ 0
    ∨ (∃ j < 16, out j / 2 ^ 12 % 4 ≠ 0) ∨ (∃ j < 4, pred j / 2 ^ 12 % 8 ≠ 0)
    ∨ 4 < b 2 3 0 ∨ b 2 38 36 = 4 ∨ b 6 20 0 = 0 ∨ 1048576 < b 6 20 0 ∨ b 7 31 0 = 0
    ∨ (d 0).toNat % 4 ≠ 0 ∨ (d 8).toNat % 4 ≠ 0
    ∨ (∃ s < 8, ¬ (ireg s = 0 ↔ start (s + 1) = start s))
    ∨ start 0 ≠ 0 ∨ (∃ s < 7, start (s + 1) < start s) ∨ (∃ s < 8, crews < start s)
    ∨ 8 * b 5 9 0 < ((List.range 8).map (fun s => (start (s + 1) - start s) * (8 * ireg s))).sum
    ∨ 64 < b 5 27 21 ∨ 1024 < b 5 20 10 ∨ (∃ s < 8, 64 < ireg s) ∨ b 5 9 0 = 0 ∨ 512 < b 5 9 0
    ∨ (if b 2 3 0 = 4 then b 7 47 32 = 0 ∨ 4096 < b 7 47 32 else b 7 47 32 ≠ 0)
    ∨ (∃ j < 16, out j / 2 ^ 14 = 2 ∧ nn ≤ out j % 2 ^ 12)
    ∨ (∃ j < 4, pred j / 2 ^ 15 = 1 ∧ (nn ≤ pred j % 2 ^ 12 ∨ pred j % 2 ^ 12 = k))
    ∨ (b 2 39 39 = 1 ∧ b 2 3 0 = 0 ∧ b 6 63 32 = 0)

/-- What R44 and R47 reject in an image with header words `h` and table words `l`: its header, a descriptor, a cycle of
completion edges. -/
def Spec.ImageBad (h l : List Word) : Prop :=
  let nn := Spec.bits (h.getD 0 0) 47 32
  Spec.bits (h.getD 0 0) 31 0 ≠ 0x3149474C ∨ nn = 0 ∨ 4096 < nn ∨ (h.getD 1 0).toNat % 128 ≠ 0
    ∨ Spec.bits (h.getD 0 0) 63 48 ≠ 0 ∨ (∃ i, 2 ≤ i ∧ i < 8 ∧ h.getD i 0 ≠ 0)
    ∨ (∃ k < nn, Spec.NodeBad (fun i => l.getD (16 * k + i) 0) nn k)
    ∨ ∃ (f : Nat → Nat) (m : Nat), 0 < m ∧ f m = f 0 ∧ ∀ j < m, f j < nn
      ∧ ∃ e < 4, Spec.bits (l.getD (16 * f j + 13) 0) (16 * e + 15) (16 * e) = 2 ^ 15 + f (j + 1)

/-- The bytes of a descriptor's largest save image (R225, R236). -/
def Spec.imageSize (d : Nat → Word) : Nat :=
  let b (i hi lo : Nat) : Nat := Spec.bits (d i) hi lo
  let crews := b 2 10 4 + 1
  512 + 64 * (if b 2 3 0 = 0 then 32 * crews else 1) + 2048 * crews + 256 * min (8 * b 5 9 0) (512 * crews)
    + 1024 * b 5 20 10 + 16 * b 5 20 10 + 4352 * b 5 27 21 * (if 64 < crews then 2 else 1)

/-- A cohort of the node finds no enabled core, or beyond 64 crews no whole twin pair, on a die of its queues (R17). -/
def Spec.Unplaceable (s : State) (d : Nat → Word) (k : Nat) : Prop :=
  ∃ die < 2, (Spec.bits (d 2) 27 12 = 0 → die = k % 2) ∧ ∀ c, c / 96 = die → s.coreEnabled c = true →
    64 < Spec.bits (d 2) 10 4 + 1 ∧ (c % 2 = 0 → s.coreEnabled (c + 1) = false)

/-- The instance `b` that packet `w` of queue `qsb` makes of the node table `l` and the initial records `rs` (R45, R48, R49,
R57, R228, R233, R235, R236, R279), before its status word is written. -/
def Spec.Launched (s : State) (qsb : Word) (w l rs : List Word) (nn size : Nat) (b : Inst) : Prop :=
  let x (i hi lo : Nat) : Nat := Spec.bits (w.getD i 0) hi lo
  let rec_ (k i : Nat) : Word := rs.getD (8 * k + i) 0
  let dest (n e : Nat) : List Nat := (List.range (x 4 15 0)).filter
    (fun k => Spec.bits (rec_ k 0) 11 0 == n && Spec.bits (rec_ k 0) 27 12 == e)
  b.slot < 64 ∧ (∀ a ∈ s.insts, a.slot ≠ b.slot)
    ∧ b.l = { serial := s.fresh.serial, tag := x 9 31 0, prio := x 0 10 8, ctx := s.qsbCtx qsb, proc := s.qProc qsb
              qsb := qsb, ictx := w.getD 2 0, siltVa := w.getD 5 0, compVa := w.getD 6 0, compVal := w.getD 7 0
              irq := if x 0 11 11 = 1 then some (x 0 19 12) else none, seed := w.getD 14 0, dep := b.l.dep
              waiting := true }
    ∧ b.l.dep = (if x 0 20 20 = 1 ∧ ∃ a ∈ s.insts, a.l.serial = x 8 31 0 then some (x 8 31 0) else none)
    ∧ b.a = { siltBlocks := x 4 47 16, saveVa := w.getD 10 0, slotSize := size, slots := (w.getD 11 0).toNat / size
              lpVa := w.getD 12 0, lpSize := 8 * x 9 45 32, lpAreas := x 13 15 0 }
    ∧ b.nodes.length = nn ∧ (∀ k < nn, Spec.NodeIs (fun i => l.getD (16 * k + i) 0) (b.nodes.getD k {}))
    ∧ b.grids = [] ∧ b.spaces = [] ∧ b.ctrs = [] ∧ b.offers = [] ∧ b.held = []
    ∧ ∀ n e : Nat, let q : Queue := b.queue n e
      q.back = [] ∧ (q.loam ++ q.silt.flatten).length = (dest n e).length
        ∧ ∀ i k, (dest n e)[i]? = some k → ((q.loam ++ q.silt.flatten)[i]?).map (fun (z : QRec) => z.r) = some
          { node := n, aidx := e, depth := 0, npay := Spec.bits (rec_ k 0) 36 34, srcdev := s.devid, srccore := 0xFFFF
            remote := false, seq := i
            pay := (List.range (Spec.bits (rec_ k 0) 36 34)).map (fun j => rec_ k (2 + j)) }

/-- R234, R369: a GRAPH_LAUNCH whose status word cannot be written launches nothing and takes no serial; one whose checks
find a cause writes that status with the launch's serial and makes no instance;
one that passes writes status 0, and the instance of its image and records (`Launched`) begins. Either way the packet is
processed and the serial advances. The causes are found in the order of R234; status 9 is stated where the ring has no
Silt block, and acceptance where the Loam banks hold every record. Of this, the numbers of serials, the instance that waits
for its status word, and that a scratchpad window counts for nothing in status 2 are the model's (log entries 61, 91, 95). -/
def Obligations.GraphLaunches : Prop :=
  ∀ (s : State) (qsb : Word) (w : List Word) (key : Nat), Spec.AtPacket s qsb w → (w.getD 0 0).toNat % 256 = 1 →
    (∀ e ∈ s.host.launching, e.1 ≠ qsb) → key / 2 ^ 56 ≠ 2 → (key + 8 ≤ rawKey qsb ∨ rawKey qsb + 64 ≤ key) →
    let begun (a : Inst) : Inst := if a.l.serial = s.fresh.serial then { a with l := { a.l with waiting := false } } else a
    let word (u : State) : DevRes := u.devWord (.queue qsb) (u.qsbCtx qsb) (w.getD 15 0) .store
    let ends (u : State) (status : Nat) : Prop := word s = .ok key → word u = .ok key →
      ∃ t, exec (.graphLaunch qsb) s = .next t ∧ t.insts = u.insts.map begun
        ∧ Spec.Processed u t qsb ∧ t.fresh.serial = s.fresh.serial + 1
        ∧ t.readKey key 8 = BitVec.ofNat 64 (2 ^ 32 * (s.fresh.serial % 2 ^ 32) + status)
    let x (i hi lo : Nat) : Nat := Spec.bits (w.getD i 0) hi lo
    let image := s.qReads qsb (w.getD 1 0) 8
    (∀ c, word s = .fail c → ∃ t, exec (.graphLaunch qsb) s = .next t ∧ t.fresh.serial = s.fresh.serial
      ∧ ∀ b ∈ t.insts, b.slot ∈ s.insts.map (·.slot))
    ∧ (∀ k, s.tryLaunch qsb w = .refuse k → ends s k)
    ∧ (∀ u, s.tryLaunch qsb w = .ok u → ends u 0 ∧ ∃ b ∈ u.insts, b.l.serial = s.fresh.serial
      ∧ b.l.tag = (w.getD 9 0).toNat % 2 ^ 32 ∧ (∀ x ∈ s.insts, x.slot ≠ b.slot)
      ∧ u.insts.map (·.slot) = s.insts.map (·.slot) ++ [b.slot])
    ∧ (∀ c a, image = .fail c a → ends s 5)
    ∧ ∀ h : List Word, image = .ok h →
      let nn := Spec.bits (h.getD 0 0) 47 32
      let table := s.qReads qsb (w.getD 1 0 + (h.getD 1 0 &&& ~~~7#64)) (16 * nn)
      (∀ c a, table = .fail c a → ends s 5)
      ∧ ∀ l, table = .ok l →
      let node (k i : Nat) : Word := l.getD (16 * k + i) 0
      let records := s.qReads qsb (w.getD 3 0) (8 * x 4 15 0)
      let size := (((List.range nn).map (fun k => Spec.imageSize (node k))).foldl max 0 + 4095) / 4096 * 4096
      (Spec.ImageBad h l → ends s 1)
      ∧ (¬ Spec.ImageBad h l → ∀ c a, records = .fail c a → ends s 5)
      ∧ ∀ rs, records = .ok rs →
      let rec_ (k i : Nat) : Word := rs.getD (8 * k + i) 0
      let bad (k : Nat) : Prop := nn ≤ Spec.bits (rec_ k 0) 11 0 ∨ Spec.bits (rec_ k 0) 36 34 = 7
        ∨ Spec.bits (node (Spec.bits (rec_ k 0) 11 0) 2) 27 12 < Spec.bits (rec_ k 0) 27 12
        ∨ Spec.bits (rec_ k 0) 37 37 = 1 ∨ Spec.bits (rec_ k 1) 63 32 ≠ 0
      let live : Prop := ∃ a ∈ s.insts, a.l.serial = x 8 31 0 ∧ a.l.proc = s.qProc qsb
      let past : Option Nat := (s.host.past.find? (fun p => p.serial == x 8 31 0 && p.proc == s.qProc qsb)).map (·.outcome)
      let full (bank : Nat) : Prop := 32768 < s.bankCount bank + s.bankGranted bank
        + ((List.range (x 4 15 0)).filter (fun k => bankOf (Spec.bits (rec_ k 0) 11 0) (Spec.bits (rec_ k 0) 27 12) == bank)).length
      let fresh : Prop := ∀ g ∈ s.fab.grants, g.tag ≠ x 9 31 0
      let causes : List (Prop × Nat) :=
        [(Spec.ImageBad h l, 1), (∃ k < x 4 15 0, bad k, 1), (∃ k < nn, Spec.Unplaceable s (node k) k, 2),
         ((w.getD 11 0).toNat < size, 6), (∀ k < 64, ∃ a ∈ s.insts, a.slot = k, 3),
         (x 0 20 20 = 1 ∧ ¬ live ∧ past ≠ some 1 ∧ past ≠ some 2, 4), (x 0 20 20 = 1 ∧ ¬ live ∧ past = some 2, 7),
         (∃ a ∈ s.insts, a.l.tag = x 9 31 0, 8)]
      (∀ (i : Nat) (p : Prop) (k : Nat), causes[i]? = some (p, k) → p → (∀ j < i, ∀ y : Prop × Nat, causes[j]? = some y → ¬ y.1) → ends s k)
      ∧ ((∀ y ∈ causes, ¬ y.1) →
        (fresh → x 4 47 16 = 0 → (∃ bank, full bank) → ends s 9)
        ∧ (fresh → (∀ bank, ¬ full bank) → ∃ u, s.tryLaunch qsb w = .ok u)
        ∧ ∀ u, s.tryLaunch qsb w = .ok u → u.crews = s.crews ∧ u.cohorts = s.cohorts
          ∧ ∃ b, u.insts = s.insts ++ [b] ∧ Spec.Launched s qsb w l rs nn size b)

/-- R246, R247: a checkpoint stops placement; when every cohort is evicted and nothing is on its way, memory and the graphs
go to the safe tier and placement goes on; when the host's bound has passed before, it fails. A restore writes the image
back. Of this, the image's form and what quiet waits for are the model's (log entries 65, 66, 96). -/
def Obligations.Checkpoints : Prop :=
  ∀ s : State,
    let hbm (x : Nat) : Prop := x / 2 ^ 56 < 2 ∨ x / 2 ^ 56 = 5 ∨ x / 2 ^ 56 = 6
    let late : Prop := s.host.check.started + s.host.check.bound < s.clk.ns
    (∀ bound, s.host.check.on = false → s.walkerOn = true → ∃ t, exec (.checkpointStart bound) s = .next t
      ∧ t.sched.stopped = true ∧ t.host.check = { on := true, bound := bound, started := s.clk.ns } ∧ t.mem = s.mem
      ∧ t.insts = s.insts ∧ t.crews = s.crews)
    ∧ (s.host.check.on = true → s.host.check.reached = true ∨ ¬ late → (∀ h ∈ s.cohorts, ∃ k, h.ev = .evicted k) →
      s.fab.outbound = [] → s.eng.items = [] → s.mem.stores = [] → s.host.launching = [] →
      ∃ t k, exec .checkpointQuiesced s = .next t ∧ t.host.tiers = s.host.tiers ++ [k] ∧ t.sched.stopped = false
        ∧ t.host.check.on = false ∧ k.insts = s.insts ∧ k.cohorts = s.cohorts ∧ k.crews = s.crews ∧ k.ctxs = s.mmu.ctxs
        ∧ (∀ x, hbm x → SMap.get 0 k.cells x = s.byteAt x) ∧ (∀ x, ¬ hbm x → SMap.get 0 k.cells x = 0)
        ∧ t.mem = s.mem ∧ t.insts = s.insts)
    ∧ (s.host.check.on = true → s.host.check.reached = false → late →
      (∃ t, exec .checkpointTimeout s = .next t ∧ t.sched.stopped = false ∧ t.host.check.on = false
        ∧ t.host.tiers = s.host.tiers ∧ t.mem = s.mem ∧ t.insts = s.insts ∧ t.crews = s.crews)
      ∧ exec .checkpointQuiesced s = .next s)
    ∧ (s.host.check.on = false ∨ ¬ late → exec .checkpointTimeout s = .next s)
    ∧ ∀ (n : Nat) (k : Snapshot), s.host.tiers[n]? = some k → s.walkerOn = true →
      ∃ t, exec (.checkpointRestore n) s = .next t ∧ t.cohorts = k.cohorts
        ∧ t.crews.map (fun c => (c.uid, c.idx, c.r, c.m, c.g, c.h)) = k.crews.map (fun c => (c.uid, c.idx, c.r, c.m, c.g, c.h))
        ∧ t.mem.loads = [] ∧ t.mem.stores = [] ∧ t.eng.items = []
        ∧ (k.faultQ = [] → t.insts = k.insts ∧ (k.log = [] → t.mmu.ctxs = k.ctxs)
          ∧ (∀ x, hbm x → t.byteAt x = SMap.get 0 k.cells x) ∧ ∀ x, ¬ hbm x → t.byteAt x = s.byteAt x)

/-! ## Encoding, the step and the invariant -/

/-- The manual's example words: each decodes to the unit it stands for (R295 to R367). -/
def Obligations.DecodeWords : Prop :=
  decode [0x02142880] = .ok (.sadd 5 5 8) 1
  ∧ decode [0xFDFFFFCF, 0x04142960] = .ok (.saddi 5 5 (-100000)) 2
  ∧ decode [0x122420 * 256 + 0x52] = .ok (.sset .lt 9 4 5) 1
  ∧ decode [0x24617FF6] = .ok (.bcc .lt 5 (-10)) 1
  ∧ decode [0x2800F001] = .ok (.jmpi 30) 1
  ∧ decode [0x2A101003] = .ok (.pnot 4 2) 1
  ∧ decode [0x32002802] = .ok (.syswr 5 2) 1
  ∧ decode [0x34000006] = .ok (.wbase 6) 1
  ∧ decode [0xFE001000, 0x40102860] = .ok (.vadd 4 5 (.v 6) .s8 ⟨0, false⟩ true) 2
  ∧ decode [0x60041872] = .ok (.vcmpLt 1 3 (.v 7) .s32 0 ⟨0, false⟩) 1
  ∧ decode [0x68201033] = .ok (.vdp4 8 2 3 false true true ⟨0, false⟩) 1
  ∧ decode [0x7814307A] = .ok (.vfma 5 6 (.v 7) .f32 ⟨0, false⟩ 0) 1
  ∧ decode [0xFE00C000, 0x801010AC] = .ok (.vcvt 4 2 .bf16 .f32 ⟨0, false⟩ 6 false) 2
  ∧ decode [0x8414082A, 0x060049CC, 0x50000000] = .ok (.vexpr 5 1 2 3 0 .f32
      [.i0, .i1, .mul, .i2, .add, .fin, .fin, .fin, .fin, .fin, .fin, .fin] false false) 3
  ∧ decode [0x885040CF] = .ok (.vqnt 20 8 .e2m1s .bf16 0 ⟨0, false⟩ 0) 1
  ∧ decode [0x8E0C100A] = .ok (.vred .add 3 2 .f32 ⟨0, false⟩ 0 false) 1
  ∧ decode [0xFE000004, 0x981A105C] = .ok (.twr 6 true 2 5 4 .bf16 ⟨0, false⟩) 2
  ∧ decode [0x20502024] = .ok (.sld 20 4 2 .pair 0 false) 1
  ∧ decode [0xC00C2892] = .ok (.vld 3 5 9 .b32 ⟨0, false⟩ 0 false) 1
  ∧ decode [0xC6503049] = .ok (.vatom64 .cas 20 6 4 ⟨0, false⟩ 0 false false) 1
  ∧ decode [0xFE020006, 0xCE0038D3] = .ok (.spset true 7 13 ⟨1, false⟩) 2
  ∧ decode [0xE0281032] = .ok (.emit 10 2 (.v 3) 2 ⟨0, false⟩) 1
  ∧ decode [0xE4200220] = .ok (.recldV 8 2 3 ⟨0, false⟩) 1
  ∧ decode [0xEC00A000] = .ok (.wdq 20) 1
  ∧ decode [0xEE286801] = .ok (.depsetDec 10 13) 1

/-- R252 to R261, R264: the words of a well-formed instruction decode to it, every operand at every value that its encoding
admits; a device event has no word. -/
def Obligations.DecodeEncode : Prop :=
  ∀ i : Instr, i.wf = true → i.isEvent = false → decode (encode i) = .ok i (encode i).length

/-- A crew's turn (R93, R249): where the crew may issue, no trap, wait, load, store or item of its own is pending, and
the words from its PC on, read by loads of four bytes at their homes, decode to `i`, a step executes `i` at that state
with the agenda's entry gone, `cur` naming the crew, its unit's length set, its words held, and the instance no longer
stuck. Of this, that fetched words are held, and read at the home's present value, is the model's (log entries 23,
24). -/
def Obligations.StepRunsDecoded : Prop :=
  ∀ (s : State) (u idx : Nat) (rest : List Action) (c : Crew) (h : Cohort) (i : Instr) (n : Nat) (ws : List Nat)
    (key : Nat → Nat),
    s.agenda = .issue u idx :: rest → s.crew? u idx = some c → c.uid = u → c.idx = idx → s.cohort? u = some h →
    c.mayIssue h = true → c.pend = [] → c.w = {} → c.x.ibuf = [] →
    (∀ l ∈ s.mem.loads, l.uid ≠ u ∨ l.idx ≠ idx) → (∀ e ∈ s.mem.stores, e.uid ≠ u ∨ e.idx ≠ idx) →
    s.itemsOf h.uid = [] → 0 < n → n ≤ 1024 → ws.length = n → decode ws = .ok i n →
    (∀ k < n, decode (ws.take k) = .more) →
    (∀ k < n, s.lane c (h.coreOf idx) h.ctx (c.r.pc + BitVec.ofNat 64 (4 * k)) .load = .home (key k)
      ∧ key k / 2 ^ 56 ≠ 2 ∧ s.poisoned (key k) 4 = false ∧ (s.readKey (key k) 4).toNat = ws.getD k 0) →
    ∃ (held : SMap Nat) (insts : List Inst),
      let c1 : Crew := { c with r := { c.r with ulen := 4 * n }, x := { c.x with ibuf := held } }
      let s1 : State := { ({ s with agenda := rest }).putCrew c1 with cur := (u, idx), insts := insts }
      step s = exec i s1 ∧ s1.Issues c1 h
        ∧ insts.map (fun a => { a with stuck := none }) = s.insts.map (fun a => { a with stuck := none })

/-- Every step keeps global memory, and every copy of it that a checkpoint keeps, in canonical form: rising keys, no
entry for a byte at its reset value. The model's own invariant (log entry 3). -/
def Obligations.MemoryInvariant : Prop :=
  ∀ s t : State, s.memOk → s.tiersOk → step s = .next t → t.memOk ∧ t.tiersOk

/-- R24: every step keeps the execution mask of every crew, and the mask that its handler returns to, within its occupancy
mask; so does every copy of a crew that a checkpoint keeps. -/
def Obligations.MasksInvariant : Prop :=
  ∀ s t : State, s.masksOk → step s = .next t → t.masksOk

/-- The machine after reset meets the invariants of memory and masks, with no byte listed and no checkpoint kept. Of this,
that an unwritten byte reads zero is log entry 3. -/
def Obligations.InvariantsAtReset : Prop :=
  State.reset.memOk ∧ State.reset.tiersOk ∧ (∀ k, State.reset.byteAt k = 0) ∧ State.reset.masksOk
end

