-- ==== Sys2Proof/Laws/Maps.lean ====
section
/-! SUPPORT. Maps in canonical form: what a read after a write gives, and that a write keeps the form. -/

namespace Sys2Proof

theorem SMap.get_del {α : Type} (z : α) (m : SMap α) (k k' : Nat) :
    SMap.get z (m.del k) k' = if k' = k then z else SMap.get z m k' := by
  induction m with
  | nil => simp [SMap.del, SMap.get]
  | cons e r ih =>
    obtain ⟨a, v⟩ := e
    by_cases h : a = k
    · subst h
      have : SMap.del ((a, v) :: r) a = SMap.del r a := by simp [SMap.del]
      rw [this, ih]
      by_cases h2 : k' = a
      · simp [h2]
      · have : ¬ a = k' := fun e => h2 e.symm
        simp [SMap.get, h2, this]
    · have : SMap.del ((a, v) :: r) k = (a, v) :: SMap.del r k := by simp [SMap.del, h]
      rw [this]
      simp only [SMap.get, ih]
      by_cases h2 : a = k'
      · subst h2; simp [h]
      · simp [h2]

theorem SMap.get_set {α : Type} [DecidableEq α] (z : α) (m : SMap α) (k : Nat) (v : α) (k' : Nat) :
    SMap.get z (SMap.set z m k v) k' = if k' = k then v else SMap.get z m k' := by
  induction m with
  | nil =>
    by_cases h : k' = k
    · by_cases hv : v = z <;> simp [SMap.set, SMap.get, hv, h]
    · have h2 : ¬ k = k' := fun e => h e.symm
      by_cases hv : v = z <;> simp [SMap.set, SMap.get, hv, h, h2]
  | cons e r ih =>
    obtain ⟨a, w⟩ := e
    simp only [SMap.set]
    split
    · have : ¬ a = k := by omega
      split
      · rename_i hv
        simp only [SMap.get, SMap.get_del, hv]
        by_cases h2 : a = k'
        · subst h2; simp [this]
        · simp [h2]
      · simp only [SMap.get, SMap.get_del]
        by_cases h2 : k' = k
        · simp [h2]
        · have h3 : ¬ k = k' := fun e => h2 e.symm
          simp [h2, h3]
    · split
      · rename_i h; subst h
        rw [ih]
        by_cases h2 : k' = k
        · simp [h2]
        · have h3 : ¬ k = k' := fun e => h2 e.symm
          simp [SMap.get, h2, h3]
      · rename_i h
        simp only [SMap.get, ih]
        by_cases h2 : a = k'
        · subst h2; have : ¬ a = k := fun e => h e.symm
          simp [this]
        · simp [h2]

theorem SMap.get_keep {α : Type} (z : α) (p : Nat → Bool) (m : SMap α) (k : Nat) :
    SMap.get z (m.keep p) k = if p k then SMap.get z m k else z := by
  induction m with
  | nil => simp [SMap.keep, SMap.get]
  | cons e r ih =>
    obtain ⟨a, v⟩ := e
    by_cases ha : p a = true
    · have : SMap.keep p ((a, v) :: r) = (a, v) :: SMap.keep p r := by simp [SMap.keep, ha]
      rw [this]; simp only [SMap.get, ih]
      by_cases h2 : a = k
      · subst h2; simp [ha]
      · simp [h2]
    · have : SMap.keep p ((a, v) :: r) = SMap.keep p r := by simp [SMap.keep, ha]
      rw [this, ih]
      by_cases h2 : a = k
      · subst h2; simp [ha]
      · simp [SMap.get, h2]

theorem SMap.wfFrom_mono {α : Type} [DecidableEq α] (z : α) {a b : Nat} (h : a ≤ b) (m : SMap α)
    (w : SMap.wfFrom z b m = true) : SMap.wfFrom z a m = true := by
  cases m with
  | nil => rfl
  | cons e r =>
    obtain ⟨k, v⟩ := e
    simp only [SMap.wfFrom, Bool.and_eq_true, decide_eq_true_eq] at w ⊢
    exact ⟨⟨by omega, w.1.2⟩, w.2⟩

theorem SMap.del_wfFrom {α : Type} [DecidableEq α] (z : α) (k lo : Nat) (m : SMap α)
    (w : SMap.wfFrom z lo m = true) : SMap.wfFrom z lo (m.del k) = true := by
  induction m generalizing lo with
  | nil => rfl
  | cons e r ih =>
    obtain ⟨a, v⟩ := e
    simp only [SMap.wfFrom, Bool.and_eq_true, decide_eq_true_eq] at w
    by_cases h : a = k
    · have : SMap.del ((a, v) :: r) k = SMap.del r k := by simp [SMap.del, h]
      rw [this]
      exact SMap.wfFrom_mono z (by omega) _ (ih _ w.2)
    · have : SMap.del ((a, v) :: r) k = (a, v) :: SMap.del r k := by simp [SMap.del, h]
      rw [this]
      simp only [SMap.wfFrom, Bool.and_eq_true, decide_eq_true_eq]
      exact ⟨w.1, ih _ w.2⟩

theorem SMap.set_wfFrom {α : Type} [DecidableEq α] (z : α) (m : SMap α) (k : Nat) (v : α) (lo : Nat)
    (h : lo ≤ k) (w : SMap.wfFrom z lo m = true) : SMap.wfFrom z lo (SMap.set z m k v) = true := by
  induction m generalizing lo with
  | nil => by_cases hv : v = z <;> simp [SMap.set, SMap.wfFrom, hv, h]
  | cons e r ih =>
    obtain ⟨a, x⟩ := e
    simp only [SMap.wfFrom, Bool.and_eq_true, decide_eq_true_eq] at w
    simp only [SMap.set]
    split
    · split
      · simp only [SMap.wfFrom, Bool.and_eq_true, decide_eq_true_eq]
        exact ⟨w.1, SMap.del_wfFrom z k _ _ w.2⟩
      · rename_i hv
        simp only [SMap.wfFrom, Bool.and_eq_true, decide_eq_true_eq]
        exact ⟨⟨h, hv⟩, ⟨by omega, w.1.2⟩, SMap.del_wfFrom z k _ _ w.2⟩
    · split
      · rename_i hk; subst hk
        have h2 : SMap.wfFrom z k r = true := SMap.wfFrom_mono z (by omega) _ w.2
        exact ih lo h (SMap.wfFrom_mono z h _ h2)
      · simp only [SMap.wfFrom, Bool.and_eq_true, decide_eq_true_eq]
        exact ⟨w.1, ih _ (by omega) w.2⟩

/-- A write keeps the canonical form. -/
theorem SMap.set_wf {α : Type} [DecidableEq α] (z : α) (m : SMap α) (k : Nat) (v : α)
    (w : SMap.wf z m = true) : SMap.wf z (SMap.set z m k v) = true :=
  SMap.set_wfFrom z m k v 0 (Nat.zero_le _) w

end Sys2Proof
end

