-- ==== Sys2Proof/Laws/Memory.lean ====
section
/-! SUPPORT. Global memory: what a read after a write gives, and that every operation that writes memory keeps
its canonical form. -/

namespace Sys2Proof.Machine

/-- A read of one byte after a write of bytes at rising keys. -/
theorem get_putBytes (bs : List Byte) : ∀ (m : List Host.Cell) (k k' : Nat),
    SMap.get Memory.absent (putBytes m k bs) k'
      = if k ≤ k' ∧ k' < k + bs.length then bs.getD (k' - k) 0 else SMap.get Memory.absent m k' := by
  induction bs with
  | nil => intro m k k'; have : ¬ (k ≤ k' ∧ k' < k + 0) := by omega
           simp only [putBytes, List.length_nil, if_neg this]
  | cons b r ih =>
    intro m k k'
    simp only [putBytes, ih, SMap.get_set, List.length_cons]
    by_cases h : k' = k
    · subst h
      have h1 : ¬ (k' + 1 ≤ k' ∧ k' < k' + 1 + r.length) := by omega
      have h2 : k' ≤ k' ∧ k' < k' + (r.length + 1) := by omega
      simp only [if_neg h1, if_pos h2, if_true, Nat.sub_self, List.getD_cons_zero]
    · by_cases h3 : k + 1 ≤ k' ∧ k' < k + 1 + r.length
      · have h4 : k ≤ k' ∧ k' < k + (r.length + 1) := by omega
        have h5 : k' - k = (k' - (k + 1)) + 1 := by omega
        simp only [if_pos h3, if_pos h4, h5, List.getD_cons_succ]
      · have h4 : ¬ (k ≤ k' ∧ k' < k + (r.length + 1)) := by omega
        simp only [if_neg h3, if_neg h4, if_neg h]

/-- A write of bytes keeps the canonical form. -/
theorem putBytes_wf (bs : List Byte) : ∀ (m : List Host.Cell) (k : Nat),
    Memory.wf m = true → Memory.wf (putBytes m k bs) = true := by
  induction bs with
  | nil => intro m k h; exact h
  | cons b r ih => intro m k h; exact ih _ _ (SMap.set_wf _ _ _ _ h)

/-- The cells of some keys keep the canonical form. -/
theorem filter_wfFrom {α : Type} [DecidableEq α] (z : α) (p : Nat × α → Bool) (m : SMap α) :
    ∀ lo : Nat, SMap.wfFrom z lo m = true → SMap.wfFrom z lo (m.filter p) = true := by
  induction m with
  | nil => intro lo h; exact h
  | cons e r ih =>
    obtain ⟨a, v⟩ := e
    intro lo h
    simp only [SMap.wfFrom, Bool.and_eq_true, decide_eq_true_eq] at h
    by_cases hp : p (a, v) = true
    · simp only [List.filter_cons, hp, if_true, SMap.wfFrom, Bool.and_eq_true, decide_eq_true_eq]
      exact ⟨h.1, ih _ h.2⟩
    · simp only [List.filter_cons, hp, Bool.false_eq_true, if_false]
      exact SMap.wfFrom_mono z (by omega) _ (ih _ h.2)

theorem filter_wf (p : Host.Cell → Bool) (m : List Host.Cell) (h : Memory.wf m = true) :
    Memory.wf (m.filter p) = true := filter_wfFrom _ p m 0 h

/-- A list of single writes keeps the canonical form. -/
theorem foldl_set_wf (l : List Host.Cell) : ∀ m : List Host.Cell, Memory.wf m = true →
    Memory.wf (l.foldl (fun m e => SMap.set Memory.absent m e.1 e.2) m) = true := by
  induction l with
  | nil => intro m h; exact h
  | cons e r ih => intro m h; exact ih _ (SMap.set_wf _ _ _ _ h)

/-- Two canonical lists, the keys of the first below a bound and those of the second not. -/
theorem append_wfFrom (b : Nat) (n : List Host.Cell) (hn : SMap.wfFrom Memory.absent b n = true) (m : List Host.Cell) :
    ∀ lo : Nat, lo ≤ b → SMap.wfFrom Memory.absent lo m = true → (∀ e ∈ m, e.1 < b)
      → SMap.wfFrom Memory.absent lo (m ++ n) = true := by
  induction m with
  | nil => intro lo h _ _; exact SMap.wfFrom_mono _ h _ hn
  | cons e r ih =>
    obtain ⟨a, v⟩ := e
    intro lo _ h hb
    simp only [List.cons_append, SMap.wfFrom, Bool.and_eq_true, decide_eq_true_eq] at h ⊢
    have ha := hb (a, v) (by simp)
    exact ⟨h.1, ih _ (by simp only at ha; omega) h.2 (fun e he => hb e (by simp [he]))⟩

/-- A canonical list whose keys all reach a bound is canonical from that bound. -/
theorem wfFrom_of_le (b : Nat) (m : List Host.Cell) : ∀ lo : Nat, SMap.wfFrom Memory.absent lo m = true
    → (∀ e ∈ m, b ≤ e.1) → SMap.wfFrom Memory.absent b m = true := by
  cases m with
  | nil => intro _ _ _; rfl
  | cons e r =>
    obtain ⟨a, v⟩ := e
    intro lo h hb
    simp only [SMap.wfFrom, Bool.and_eq_true, decide_eq_true_eq] at h ⊢
    exact ⟨⟨hb (a, v) (by simp), h.1.2⟩, h.2⟩

/-- A write at a home keeps memory canonical. -/
theorem State.writeKey_memOk {s : State} (h : s.memOk) (k : Nat) (bs : List Byte) : (s.writeKey k bs).memOk :=
  putBytes_wf bs _ k h

/-- A read of a byte after a write at a home. -/
theorem State.byteAt_writeKey (s : State) (k : Nat) (bs : List Byte) (k' : Nat) :
    (s.writeKey k bs).byteAt k' = if k ≤ k' ∧ k' < k + bs.length then bs.getD (k' - k) 0 else s.byteAt k' :=
  get_putBytes bs _ k k'

/-- Steps that each keep memory canonical keep it so one after the other. -/
theorem foldl_memOk {α : Type} (f : State → α → State) (hf : ∀ s a, s.memOk → (f s a).memOk) (l : List α) :
    ∀ s : State, s.memOk → (l.foldl f s).memOk := by
  induction l with
  | nil => intro s h; exact h
  | cons a r ih => intro s h; exact ih _ (hf s a h)

/-- Answering watches sends messages and does nothing to memory. -/
theorem foldl_send_mem {α : Type} (l : List α) (f : State → α → Msg) : ∀ s : State,
    (l.foldl (fun s x => s.send (f s x)) s).mem = s.mem ∧ (l.foldl (fun s x => s.send (f s x)) s).host = s.host := by
  induction l with
  | nil => intro s; exact ⟨rfl, rfl⟩
  | cons a r ih => intro s; exact ih (s.send (f s a))

theorem State.wrote_mem (s : State) (k n : Nat) : (s.wrote k n).mem = s.mem ∧ (s.wrote k n).host = s.host :=
  foldl_send_mem (s.fab.watches.filter _) (fun (s : State) (w : Watch) => .answer w.src w.rid (s.readKey w.key 8) false) s

/-- A store performed at its home is the write of its bytes. -/
theorem State.perform_mem (s : State) (k : Nat) (bs : List Byte) : (s.perform k bs).mem = (s.writeKey k bs).mem :=
  (State.wrote_mem _ _ _).1

theorem State.perform_memOk {s : State} (h : s.memOk) (k : Nat) (bs : List Byte) : (s.perform k bs).memOk := by
  unfold State.memOk
  rw [State.perform_mem]
  exact State.writeKey_memOk h k bs

theorem State.byteAt_perform (s : State) (k : Nat) (bs : List Byte) (k' : Nat) :
    (s.perform k bs).byteAt k' = if k ≤ k' ∧ k' < k + bs.length then bs.getD (k' - k) 0 else s.byteAt k' := by
  rw [← State.byteAt_writeKey]
  unfold State.byteAt
  rw [State.perform_mem]

/-- A word of a QSB is written at its home. -/
theorem State.setQsbWord_memOk {s : State} (h : s.memOk) (q : Word) (k v : Nat) : (s.setQsbWord q k v).memOk :=
  State.writeKey_memOk h _ _

/-- What the run lists show of halted queues is noted in their QSBs alone. -/
theorem State.noteLists_memOk {s : State} (h : s.memOk) : s.noteLists.memOk := by
  unfold State.noteLists
  split
  · exact h
  · exact foldl_memOk (fun (s : State) (q : Word) => s.setQueue q 0 (s.qRptr q))
      (fun _ _ h => State.setQsbWord_memOk h _ _ _) _ _ h

/-- A write from outside keeps memory canonical. -/
theorem State.agentWrite_memOk {s : State} (h : s.memOk) (k : Nat) (bs : List Byte) : (s.agentWrite k bs).memOk := by
  unfold State.agentWrite
  split
  · exact State.noteLists_memOk (State.perform_memOk h k bs)
  · exact h

/-- The copy of a frame keeps memory canonical. -/
theorem State.copyFrame_memOk {s : State} (h : s.memOk) (a b : Nat) : (s.copyFrame a b).memOk :=
  foldl_set_wf _ _ (filter_wf _ _ h)

/-- What a checkpoint keeps is canonical and within the memory of the two dies and their carve-outs. -/
theorem State.snapshot_cells {s : State} (h : s.memOk) :
    Memory.wf s.snapshot.cells = true ∧ ∀ e ∈ s.snapshot.cells, inHbm e.1 = true :=
  ⟨filter_wf _ _ h, fun _ he => (List.mem_filter.1 he).2⟩

/-- Two canonical lists on either side of a bound. -/
theorem append_wf (b : Nat) {m n : List Host.Cell} (hm : Memory.wf m = true) (hn : Memory.wf n = true)
    (h1 : ∀ e ∈ m, e.1 < b) (h2 : ∀ e ∈ n, b ≤ e.1) : Memory.wf (m ++ n) = true :=
  append_wfFrom b n (wfFrom_of_le b n 0 hn h2) m 0 (Nat.zero_le _) hm h1

/-- The memory that a restore makes is canonical: spaces 0 and 1, 2 to 4, 5 and 6, and the rest. -/
theorem restored_wf {cells m : List Host.Cell} (h1 : Memory.wf cells = true) (h : Memory.wf m = true) :
    let part (l : List Host.Cell) (lo n : Nat) : List Host.Cell :=
      l.filter (fun c => decide (lo ≤ c.1 / 2 ^ 56) && decide (c.1 / 2 ^ 56 < lo + n))
    Memory.wf (part cells 0 2 ++ part m 2 3 ++ part cells 5 2 ++ m.filter (fun c => decide (7 ≤ c.1 / 2 ^ 56))) = true := by
  intro part
  have hp : ∀ l lo n, ∀ e ∈ part l lo n, lo * 2 ^ 56 ≤ e.1 ∧ e.1 < (lo + n) * 2 ^ 56 := by
    intro l lo n e he
    have := (List.mem_filter.1 he).2
    simp only [Bool.and_eq_true, decide_eq_true_eq] at this
    omega
  refine append_wf (7 * 2 ^ 56) (append_wf (5 * 2 ^ 56) (append_wf (2 * 2 ^ 56) (filter_wf _ _ h1) (filter_wf _ _ h)
    ?_ ?_) (filter_wf _ _ h1) ?_ ?_) (filter_wf _ _ h) ?_ ?_
  · intro e he; have := hp _ _ _ e he; omega
  · intro e he; have := hp _ _ _ e he; omega
  · intro e he
    rcases List.mem_append.1 he with he | he <;> (have := hp _ _ _ e he; omega)
  · intro e he; have := hp _ _ _ e he; omega
  · intro e he
    rcases List.mem_append.1 he with he | he
    · rcases List.mem_append.1 he with he | he <;> (have := hp _ _ _ e he; omega)
    · have := hp _ _ _ e he; omega
  · intro e he
    have := (List.mem_filter.1 he).2
    simp only [decide_eq_true_eq] at this
    omega

theorem foldl_putBytes_wf (l : List (Nat × Word)) : ∀ m : List Host.Cell, Memory.wf m = true →
    Memory.wf (l.foldl (fun m e => putBytes m e.1 (leBytes 8 e.2.toNat)) m) = true := by
  induction l with
  | nil => intro m h; exact h
  | cons e r ih => intro m h; exact ih _ (putBytes_wf _ _ _ h)

/-- So is the memory in which a given word is the next to run. -/
theorem State.withFetchWord_memOk {s : State} (h : s.memOk) (n w : Nat) : (s.withFetchWord n w).memOk := by
  have e : (s.withFetchWord n w).mem.mem = putBytes (fetchTables.foldl (fun m e => putBytes m e.1 (leBytes 8 e.2.toNat)) s.mem.mem)
      fetchAt.toNat ((tableWords n w).flatMap bytesOfWord) := by simp only [State.withFetchWord]
  unfold State.memOk
  rw [e]
  apply putBytes_wf
  apply foldl_putBytes_wf
  exact h

/-- The low bytes of a number, read back. -/
theorem leVal_leBytes (n : Nat) : ∀ v : Nat, leVal (leBytes n v) = v % 256 ^ n := by
  induction n with
  | zero => intro v; simp [leBytes, leVal, Nat.mod_one]
  | succ n ih =>
    intro v
    have e : 256 ^ (n + 1) = 256 * 256 ^ n := Nat.pow_succ'
    rw [e, Nat.mod_mul]
    simp only [leBytes, leVal, ih]
    rw [BitVec.toNat_ofNat]

theorem leBytes_length (n : Nat) : ∀ v : Nat, (leBytes n v).length = n := by
  induction n with
  | zero => intro v; rfl
  | succ n ih => intro v; simp [leBytes, ih]

end Sys2Proof.Machine
end

