-- ==== Sys2Proof/Laws/Ops.lean ====
section
/-! SUPPORT. What the shared operations of a crew's unit do: finding the crew, storing it back, ending the
unit. -/

namespace Sys2Proof.Machine

theorem State.crew?_id {s : State} {u i : Nat} {c : Crew} (h : s.crew? u i = some c) :
    c.uid = u ∧ c.idx = i := by
  have := List.find?_some h
  simpa using this

theorem State.Issues.uid {s : State} {c : Crew} {h : Cohort} (i : s.Issues c h) : c.uid = s.cur.1 :=
  (State.crew?_id i.1).1

theorem State.Issues.idx {s : State} {c : Crew} {h : Cohort} (i : s.Issues c h) : c.idx = s.cur.2 :=
  (State.crew?_id i.1).2

theorem State.Issues.crew {s : State} {c : Crew} {h : Cohort} (i : s.Issues c h) :
    s.crew? c.uid c.idx = some c := by rw [i.uid, i.idx]; exact i.1

theorem State.Issues.cohort {s : State} {c : Crew} {h : Cohort} (i : s.Issues c h) :
    s.cohort? c.uid = some h := by rw [i.uid]; exact i.2

/-- A crew's operation runs for the crew that issues. -/
theorem crewOp_next {s : State} {c : Crew} {h : Cohort} (i : s.Issues c h)
    (f : State → Crew → Cohort → State) : crewOp f s = .next (f s c h) := by
  simp [crewOp, i.1, i.2]

theorem find?_map_same {α : Type} (p : α → Bool) (f : α → α) (hp : ∀ x, p (f x) = p x) (l : List α) :
    (l.map f).find? p = (l.find? p).map f := by
  induction l with
  | nil => rfl
  | cons a r ih =>
    simp only [List.map_cons, List.find?_cons, hp]
    cases p a <;> simp [ih]

theorem State.crew?_modCrew (s : State) (u i : Nat) (f : Crew → Crew)
    (hf : ∀ d, d.uid = u → d.idx = i → (f d).uid = u ∧ (f d).idx = i) (u' i' : Nat) :
    (s.modCrew u i f).crew? u' i'
      = if u' = u ∧ i' = i then (s.crew? u' i').map f else s.crew? u' i' := by
  unfold State.modCrew State.crew?
  simp only
  rw [find?_map_same]
  · split
    · rename_i h
      obtain ⟨rfl, rfl⟩ := h
      cases hc : List.find? (fun c => c.uid == u' && c.idx == i') s.crews with
      | none => rfl
      | some d =>
        have := List.find?_some hc
        simp only [Option.map_some, this, if_true]
    · rename_i h
      cases hc : List.find? (fun c => c.uid == u' && c.idx == i') s.crews with
      | none => rfl
      | some d =>
        have h2 := List.find?_some hc
        simp only [Bool.and_eq_true, beq_iff_eq] at h2
        have : (d.uid == u && d.idx == i) = false := by
          rw [Bool.eq_false_iff]
          simp only [ne_eq, Bool.and_eq_true, beq_iff_eq]
          rintro ⟨rfl, rfl⟩
          exact h ⟨h2.1.symm, h2.2.symm⟩
        simp only [Option.map_some, this, Bool.false_eq_true, if_false]
  · intro d
    split
    · rename_i h
      simp only [Bool.and_eq_true, beq_iff_eq] at h
      have := hf d h.1 h.2
      rw [this.1, this.2, h.1, h.2]
    · rfl

/-- Storing a crew back changes that crew and nothing else. -/
theorem State.only_putCrew {s : State} {c c' : Crew} (hc : s.crew? c.uid c.idx = some c)
    (hu : c'.uid = c.uid) (hi : c'.idx = c.idx) : s.Only (s.putCrew c') c c' := by
  refine ⟨?_, rfl, ?_⟩
  · unfold State.putCrew
    rw [State.crew?_modCrew _ _ _ _ (fun _ _ _ => ⟨rfl, rfl⟩)]
    simp [hu, hi, hc]
  · intro u i h
    unfold State.putCrew
    rw [State.crew?_modCrew _ _ _ _ (fun _ _ _ => ⟨rfl, rfl⟩)]
    have : ¬ (u = c'.uid ∧ i = c'.idx) := by rw [hu, hi]; omega
    simp [this]

/-- The crew that the end of a unit leaves behind. -/
def Crew.ended (c : Crew) (pc : Word) : Crew :=
  { c.unwait with
    g := { c.g with skid := if c.g.stopping then c.g.skid + 1 else c.g.skid }
    r := { c.r with pc := pc } }

/-- The end of a unit with no trap and no single step stores the crew back at the new PC. -/
theorem State.finishAt_plain {s : State} {c0 c : Crew} {h : Cohort} (pc : Word)
    (hc : s.crew? c.uid c.idx = some c0) (n : c0.NoStep) :
    s.finishAt c h pc none = s.putCrew (c.ended pc) := by
  have e : (c0.g.ccr.getLsbD 12 && !c0.g.hnd) = false := n
  simp only [State.finishAt, hc, Option.getD_some, e, Bool.false_and, Bool.false_eq_true, if_false, Crew.setPc, Crew.issued,
    Crew.ended, Crew.unwait]

/-- A unit that changes only its crew's registers and goes on to `pc`. -/
theorem State.completesAt_of {s : State} {c : Crew} {h : Cohort} (i : s.Issues c h) (n : c.NoStep)
    {ins : Instr} {f : Crew → Crew} {pc : Crew → Word}
    (hx : exec ins s = crewOp (fun s c h => s.finishAt (f c) h (pc c) none) s)
    (hf : c.Frame (f c)) {P : Crew → Prop} (hP : P ((f c).ended (pc c))) :
    s.CompletesAt c ins (pc c) P := by
  obtain ⟨⟨h1, h2, h3, h4, h5, h6, h7, h8, h9⟩, h10, h11, h12, h13⟩ := hf
  refine ⟨_, (f c).ended (pc c), ?_, State.only_putCrew i.crew h1 h2, ?_, rfl, rfl, hP⟩
  · rw [hx, crewOp_next i, State.finishAt_plain (c0 := c) _ (by rw [h1, h2]; exact i.crew) n]
  · exact ⟨⟨h1, h2, h3, h4, h5, h6, h7, h8, h9⟩, h10, h11, h12, h13⟩

@[simp] theorem Crew.ended_sr (c : Crew) (pc : Word) (n : Nat) : (c.ended pc).sr n = c.sr n := rfl
@[simp] theorem Crew.ended_pr (c : Crew) (pc : Word) (n : Nat) : (c.ended pc).pr n = c.pr n := rfl
@[simp] theorem Crew.ended_vl (c : Crew) (pc : Word) (n l : Nat) : (c.ended pc).vl n l = c.vl n l := rfl
@[simp] theorem Crew.ended_nfl (c : Crew) (pc : Word) (k : Nat) : (c.ended pc).nfl k = c.nfl k := rfl
@[simp] theorem Crew.ended_m (c : Crew) (pc : Word) : (c.ended pc).m = c.m := rfl

/-- A scalar write takes its value, s0 excepted. -/
theorem Crew.sr_setS (c : Crew) (d : Nat) (v : Word) (n : Nat) :
    (c.setS d v).sr n = if n = d ∧ n ≠ 0 then v else c.sr n := by
  unfold Crew.setS
  by_cases hd : d = 0
  · have : ¬ (n = d ∧ n ≠ 0) := by omega
    simp only [hd, if_true]
    simp only [hd] at this
    simp [this]
  · simp only [hd, if_false, Crew.sr]
    by_cases hn : n = 0
    · simp [hn]
    · simp only [hn, if_false, SMap.get_set, ne_eq, not_false_eq_true, and_true]

theorem Crew.pr_setP (c : Crew) (d : Nat) (v : Mask) (n : Nat) :
    (c.setP d v).pr n = if n = d ∧ n ≠ 0 then v else c.pr n := by
  unfold Crew.setP
  by_cases hd : d = 0
  · have : ¬ (n = d ∧ n ≠ 0) := by omega
    simp only [hd, if_true]
    simp only [hd] at this
    simp [this]
  · simp only [hd, if_false, Crew.pr]
    by_cases hn : n = 0
    · simp [hn]
    · simp only [hn, if_false, SMap.get_set, ne_eq, not_false_eq_true, and_true]

theorem Crew.vl_setV (c : Crew) (f l : Nat) (v : Word) (n k : Nat) (hl : l < 32) (hk : k < 32) :
    (c.setV f l v).vl n k = if n = f ∧ k = l then v else c.vl n k := by
  unfold Crew.setV Crew.vl Crew.vix
  simp only [SMap.get_set]
  by_cases h : n = f ∧ k = l
  · obtain ⟨rfl, rfl⟩ := h; simp
  · have : ¬ (32 * (8 * c.g.wbase + n) + k = 32 * (8 * c.g.wbase + f) + l) := by omega
    simp [h, this]

theorem Crew.setS_frame (c : Crew) (d : Nat) (v : Word) :
    c.Frame (c.setS d v) ∧ (c.setS d v).g = c.g ∧ (c.setS d v).m = c.m ∧ (c.setS d v).r.v = c.r.v
      ∧ (c.setS d v).r.p = c.r.p ∧ (c.setS d v).r.pc = c.r.pc ∧ (c.setS d v).r.ulen = c.r.ulen := by
  unfold Crew.setS Crew.Frame Crew.Fixed
  split <;> simp

theorem Crew.setP_frame (c : Crew) (d : Nat) (v : Mask) :
    c.Frame (c.setP d v) ∧ (c.setP d v).g = c.g ∧ (c.setP d v).m = c.m ∧ (c.setP d v).r.v = c.r.v
      ∧ (c.setP d v).r.s = c.r.s ∧ (c.setP d v).r.pc = c.r.pc ∧ (c.setP d v).r.ulen = c.r.ulen := by
  unfold Crew.setP Crew.Frame Crew.Fixed
  split <;> simp

/-- A scalar result completes and changes only its register. -/
theorem scalarOp_completes {s : State} {c : Crew} {h : Cohort} (i : s.Issues c h) (n : c.NoStep)
    {ins : Instr} {d : Nat} {v : Crew → Word} (hx : exec ins s = scalarOp d v s) :
    s.Completes c ins (c.TakesS d (v c)) := by
  obtain ⟨h1, h2, h3, h4, h5, h6, h7⟩ := c.setS_frame d (v c)
  have h8 : (c.setS d (v c)).nextPc = c.nextPc := by simp [Crew.nextPc, h6, h7]
  unfold State.Completes
  rw [← h8]
  refine State.completesAt_of i n (f := fun c => c.setS d (v c)) (pc := fun c => (c.setS d (v c)).nextPc) hx h1 ?_
  refine ⟨fun n => ?_, h4, h5, h3, ?_⟩
  · rw [Crew.ended_sr, Crew.sr_setS]
  · unfold Crew.SameCtl Crew.ended
    simp [h2]

end Sys2Proof.Machine
end

