-- ==== Sys2Proof/Laws/PerInstr.lean ====
section
/-! SUPPORT. Statements about every instruction as syntax, one lemma for each constructor. -/

namespace Sys2Proof.Laws.UnitLength

set_option Elab.async false

/-- The manual's unit has one to three words, a device event has none (R250, R264). -/
def Statement (i : Instr) : Prop :=
  (encode i).length ≤ 3 ∧ ((encode i).length = 0 ↔ i.isEvent = true)

/-- A unit of an optional XP prefix and a word. -/
theorem length_unit (x : Xp) (w : Nat) : 1 ≤ (unit x w).length ∧ (unit x w).length ≤ 2 := by
  unfold unit xpWords
  split <;> simp

/-- A unit of format SI. -/
theorem length_unitI (x : Xp) (op d a : Nat) (i : Int) :
    1 ≤ (unitI x op d a i).length ∧ (unitI x op d a i).length ≤ 3 := by
  unfold unitI xpWords
  split <;> split <;> simp

theorem of_unit {i : Instr} {x : Xp} {w : Nat} (h : encode i = unit x w) (e : i.isEvent = false) : Statement i := by
  have := length_unit x w
  unfold Statement
  rw [h, e]
  exact ⟨by omega, ⟨fun k => by omega, fun k => by simp at k⟩⟩

theorem of_word {i : Instr} {w : Nat} (h : encode i = [w]) (e : i.isEvent = false) : Statement i := by
  unfold Statement
  rw [h, e]
  simp

theorem of_three {i : Instr} {u v w : Nat} (h : encode i = [u, v, w]) (e : i.isEvent = false) : Statement i := by
  unfold Statement
  rw [h, e]
  simp

theorem of_none {i : Instr} (h : encode i = []) (e : i.isEvent = true) : Statement i := by
  unfold Statement
  rw [h, e]
  simp

theorem of_unitI {i : Instr} {x : Xp} {op d a : Nat} {n : Int} (h : encode i = unitI x op d a n) (e : i.isEvent = false) :
    Statement i := by
  have := length_unitI x op d a n
  unfold Statement
  rw [h, e]
  exact ⟨by omega, ⟨fun k => by omega, fun k => by simp at k⟩⟩

theorem sadd (d a b : Nat) : Statement (.sadd d a b) := of_unit rfl rfl
theorem ssub (d a b : Nat) : Statement (.ssub d a b) := of_unit rfl rfl
theorem saddi (d a : Nat) (imm : Int) : Statement (.saddi d a imm) := of_unitI rfl rfl
theorem smul (d a b : Nat) : Statement (.smul d a b) := of_unit rfl rfl
theorem smulh (d a b : Nat) : Statement (.smulh d a b) := of_unit rfl rfl
theorem smulhN (d a b : Nat) : Statement (.smulhN d a b) := of_unit rfl rfl
theorem sand (d a b : Nat) : Statement (.sand d a b) := of_unit rfl rfl
theorem sor (d a b : Nat) : Statement (.sor d a b) := of_unit rfl rfl
theorem sxor (d a b : Nat) : Statement (.sxor d a b) := of_unit rfl rfl
theorem sandn (d a b : Nat) : Statement (.sandn d a b) := of_unit rfl rfl
theorem sandi (d a : Nat) (imm : Int) : Statement (.sandi d a imm) := of_unitI rfl rfl
theorem sori (d a : Nat) (imm : Int) : Statement (.sori d a imm) := of_unitI rfl rfl
theorem sxori (d a : Nat) (imm : Int) : Statement (.sxori d a imm) := of_unitI rfl rfl
theorem sshl (d a b : Nat) : Statement (.sshl d a b) := of_unit rfl rfl
theorem sshr (d a b : Nat) : Statement (.sshr d a b) := of_unit rfl rfl
theorem ssra (d a b : Nat) : Statement (.ssra d a b) := of_unit rfl rfl
theorem sshlImm (d a n : Nat) : Statement (.sshlImm d a n) := of_unit rfl rfl
theorem sshrImm (d a n : Nat) : Statement (.sshrImm d a n) := of_unit rfl rfl
theorem ssraImm (d a n : Nat) : Statement (.ssraImm d a n) := of_unit rfl rfl
theorem sset (c : SCmp) (d a b : Nat) : Statement (.sset c d a b) := of_unit rfl rfl
theorem smin (d a b : Nat) : Statement (.smin d a b) := of_unit rfl rfl
theorem smax (d a b : Nat) : Statement (.smax d a b) := of_unit rfl rfl
theorem sminN (d a b : Nat) : Statement (.sminN d a b) := of_unit rfl rfl
theorem smaxN (d a b : Nat) : Statement (.smaxN d a b) := of_unit rfl rfl
theorem smov (d a : Nat) : Statement (.smov d a) := of_unit rfl rfl
theorem ssel (d a b : Nat) (q : Pred) : Statement (.ssel d a b q) := of_unit rfl rfl
theorem smovi (d : Nat) (imm : Int) : Statement (.smovi d imm) := of_unitI rfl rfl
theorem smoviHi (d : Nat) (imm : Int) : Statement (.smoviHi d imm) := of_unitI rfl rfl
theorem sbfx (d a b : Nat) : Statement (.sbfx d a b) := of_unit rfl rfl
theorem sbfxN (d a b : Nat) : Statement (.sbfxN d a b) := of_unit rfl rfl
theorem sbfi (d a b : Nat) : Statement (.sbfi d a b) := of_unit rfl rfl
theorem sclz (d a : Nat) : Statement (.sclz d a) := of_unit rfl rfl
theorem spopc (d a : Nat) : Statement (.spopc d a) := of_unit rfl rfl
theorem sld (d a : Nat) (off : Int) (z : Size) (scope : Nat) (nt : Bool) : Statement (.sld d a off z scope nt) := of_unit rfl rfl
theorem sst (d a : Nat) (off : Int) (z : Size) (scope : Nat) (nt : Bool) : Statement (.sst d a off z scope nt) := of_unit rfl rfl
theorem bra (off : Int) : Statement (.bra off) := of_word rfl rfl
theorem bcc (c : BCond) (r : Nat) (off : Int) : Statement (.bcc c r off) := of_word rfl rfl
theorem bccPred (c : PCond) (p : Nat) (off : Int) : Statement (.bccPred c p off) := of_word rfl rfl
theorem call (off : Int) : Statement (.call off) := of_word rfl rfl
theorem ret : Statement .ret := of_word rfl rfl
theorem jmpi (a : Nat) : Statement (.jmpi a) := of_unit rfl rfl
theorem pand (d a b : Nat) : Statement (.pand d a b) := of_word rfl rfl
theorem por (d a b : Nat) : Statement (.por d a b) := of_word rfl rfl
theorem pxor (d a b : Nat) : Statement (.pxor d a b) := of_word rfl rfl
theorem pnot (d a : Nat) : Statement (.pnot d a) := of_word rfl rfl
theorem pcnt (d a : Nat) : Statement (.pcnt d a) := of_unit rfl rfl
theorem pcntAny (d a : Nat) : Statement (.pcntAny d a) := of_unit rfl rfl
theorem pcntAll (d a : Nat) : Statement (.pcntAll d a) := of_unit rfl rfl
theorem xmset (p : Nat) : Statement (.xmset p) := of_word rfl rfl
theorem xmpush (p : Nat) : Statement (.xmpush p) := of_word rfl rfl
theorem xmpop : Statement .xmpop := of_word rfl rfl
theorem xmelse : Statement .xmelse := of_word rfl rfl
theorem sysrd (d : Nat) (num : Int) : Statement (.sysrd d num) := of_unitI rfl rfl
theorem syswr (a : Nat) (num : Int) : Statement (.syswr a num) := of_unitI rfl rfl
theorem wbase (n : Int) : Statement (.wbase n) := of_unitI rfl rfl
theorem regrel (n : Int) : Statement (.regrel n) := of_unitI rfl rfl
theorem regclm (n : Int) : Statement (.regclm n) := of_unitI rfl rfl
theorem rngsetSeed (a : Nat) : Statement (.rngsetSeed a) := of_unit rfl rfl
theorem rngsetCtr (a : Nat) : Statement (.rngsetCtr a) := of_unit rfl rfl
theorem rnggetCtr (d : Nat) : Statement (.rnggetCtr d) := of_unit rfl rfl
theorem rnggetSeed (d : Nat) : Statement (.rnggetSeed d) := of_unit rfl rfl
theorem trap (a : Nat) : Statement (.trap a) := of_unit rfl rfl
theorem tret : Statement .tret := of_word rfl rfl
theorem brk : Statement .brk := of_word rfl rfl
theorem nop : Statement .nop := of_word rfl rfl
theorem yield : Statement .yield := of_word rfl rfl
theorem exit : Statement .exit := of_word rfl rfl
theorem vadd (d a : Nat) (b : VOp) (t : Ty) (q : Pred) (sat : Bool) : Statement (.vadd d a b t q sat) := of_unit rfl rfl
theorem vsub (d a : Nat) (b : VOp) (t : Ty) (q : Pred) (sat : Bool) : Statement (.vsub d a b t q sat) := of_unit rfl rfl
theorem vaddi (d a : Nat) (imm : Int) (t : Ty) (q : Pred) (sat : Bool) : Statement (.vaddi d a imm t q sat) := of_unit rfl rfl
theorem vmul (d a : Nat) (b : VOp) (t : Ty) (q : Pred) (sat : Bool) : Statement (.vmul d a b t q sat) := of_unit rfl rfl
theorem vmulh (d a : Nat) (b : VOp) (t : Ty) (q : Pred) : Statement (.vmulh d a b t q) := of_unit rfl rfl
theorem vmad (d a : Nat) (b : VOp) (t : Ty) (q : Pred) (sat : Bool) : Statement (.vmad d a b t q sat) := of_unit rfl rfl
theorem vdiv (d a : Nat) (b : VOp) (t : Ty) (q : Pred) : Statement (.vdiv d a b t q) := of_unit rfl rfl
theorem vrem (d a : Nat) (b : VOp) (t : Ty) (q : Pred) : Statement (.vrem d a b t q) := of_unit rfl rfl
theorem vand (d a : Nat) (b : VOp) (q : Pred) : Statement (.vand d a b q) := of_unit rfl rfl
theorem vor (d a : Nat) (b : VOp) (q : Pred) : Statement (.vor d a b q) := of_unit rfl rfl
theorem vxor (d a : Nat) (b : VOp) (q : Pred) : Statement (.vxor d a b q) := of_unit rfl rfl
theorem vnot (d a : Nat) (q : Pred) : Statement (.vnot d a q) := of_unit rfl rfl
theorem vshl (d a : Nat) (b : VOp) (t : Ty) (q : Pred) : Statement (.vshl d a b t q) := of_unit rfl rfl
theorem vshr (d a : Nat) (b : VOp) (t : Ty) (q : Pred) : Statement (.vshr d a b t q) := of_unit rfl rfl
theorem vsra (d a : Nat) (b : VOp) (t : Ty) (q : Pred) : Statement (.vsra d a b t q) := of_unit rfl rfl
theorem vmin (d a : Nat) (b : VOp) (t : Ty) (q : Pred) : Statement (.vmin d a b t q) := of_unit rfl rfl
theorem vmax (d a : Nat) (b : VOp) (t : Ty) (q : Pred) : Statement (.vmax d a b t q) := of_unit rfl rfl
theorem vcmpEq (d a : Nat) (b : VOp) (t : Ty) (e : Nat) (q : Pred) : Statement (.vcmpEq d a b t e q) := of_unit rfl rfl
theorem vcmpNe (d a : Nat) (b : VOp) (t : Ty) (e : Nat) (q : Pred) : Statement (.vcmpNe d a b t e q) := of_unit rfl rfl
theorem vcmpLt (d a : Nat) (b : VOp) (t : Ty) (e : Nat) (q : Pred) : Statement (.vcmpLt d a b t e q) := of_unit rfl rfl
theorem vcmpLe (d a : Nat) (b : VOp) (t : Ty) (e : Nat) (q : Pred) : Statement (.vcmpLe d a b t e q) := of_unit rfl rfl
theorem vcmpUn (d a : Nat) (b : VOp) (t : Ty) (e : Nat) (q : Pred) : Statement (.vcmpUn d a b t e q) := of_unit rfl rfl
theorem vsel (d a : Nat) (b : VOp) (p : Nat) (q : Pred) : Statement (.vsel d a b p q) := of_unit rfl rfl
theorem vdp4 (d a b : Nat) (sat sb sa : Bool) (q : Pred) : Statement (.vdp4 d a b sat sb sa q) := of_unit rfl rfl
theorem vdp8 (d a b : Nat) (sat sb sa : Bool) (q : Pred) : Statement (.vdp8 d a b sat sb sa q) := of_unit rfl rfl
theorem vclz (d a : Nat) (t : Ty) (q : Pred) : Statement (.vclz d a t q) := of_unit rfl rfl
theorem vpopc (d a : Nat) (t : Ty) (q : Pred) : Statement (.vpopc d a t q) := of_unit rfl rfl
theorem vmov (d a : Nat) (q : Pred) : Statement (.vmov d a q) := of_unit rfl rfl
theorem vmovBcast (d a : Nat) (q : Pred) : Statement (.vmovBcast d a q) := of_unit rfl rfl
theorem vmovLane (d : Nat) (q : Pred) : Statement (.vmovLane d q) := of_unit rfl rfl
theorem vmovi (d : Nat) (imm : Int) (t : Ty) (q : Pred) : Statement (.vmovi d imm t q) := of_unit rfl rfl
theorem vfadd (d a : Nat) (b : VOp) (t : Ty) (q : Pred) (rnd : Nat) : Statement (.vfadd d a b t q rnd) := of_unit rfl rfl
theorem vfsub (d a : Nat) (b : VOp) (t : Ty) (q : Pred) (rnd : Nat) : Statement (.vfsub d a b t q rnd) := of_unit rfl rfl
theorem vfmul (d a : Nat) (b : VOp) (t : Ty) (q : Pred) (rnd : Nat) : Statement (.vfmul d a b t q rnd) := of_unit rfl rfl
theorem vfma (d a : Nat) (b : VOp) (t : Ty) (q : Pred) (rnd : Nat) : Statement (.vfma d a b t q rnd) := of_unit rfl rfl
theorem vfms (d a : Nat) (b : VOp) (t : Ty) (q : Pred) (rnd : Nat) : Statement (.vfms d a b t q rnd) := of_unit rfl rfl
theorem vfmin (d a : Nat) (b : VOp) (t : Ty) (q : Pred) : Statement (.vfmin d a b t q) := of_unit rfl rfl
theorem vfmax (d a : Nat) (b : VOp) (t : Ty) (q : Pred) : Statement (.vfmax d a b t q) := of_unit rfl rfl
theorem vcvt (d a : Nat) (dst src : Ty) (q : Pred) (rnd : Nat) (sat : Bool) : Statement (.vcvt d a dst src q rnd sat) := of_unit rfl rfl
theorem vsf (d a : Nat) (f : SfFn) (q : Pred) : Statement (.vsf d a f q) := of_unit rfl rfl
theorem vexpr (d i0 i1 i2 i3 : Nat) (t : Ty) (toks : List Tok) (sat rnef : Bool) : Statement (.vexpr d i0 i1 i2 i3 t toks sat rnef) := of_three rfl rfl
theorem vhad (d a : Nat) (h32 : Bool) (t : Ty) (q : Pred) (rnd : Nat) : Statement (.vhad d a h32 t q rnd) := of_unit rfl rfl
theorem vqnt (d a : Nat) (dst src : Ty) (had : Nat) (q : Pred) (rnd : Nat) : Statement (.vqnt d a dst src had q rnd) := of_unit rfl rfl
theorem vshfl (d a : Nat) (b : VOp) (t : Ty) (q : Pred) : Statement (.vshfl d a b t q) := of_unit rfl rfl
theorem vvote (op : VoteOp) (d p b : Nat) : Statement (.vvote op d p b) := of_unit rfl rfl
theorem vred (op : RedOp) (d a : Nat) (t : Ty) (q : Pred) (rnd : Nat) (sat : Bool) : Statement (.vred op d a t q rnd sat) := of_unit rfl rfl
theorem vscan (op : RedOp) (d a : Nat) (t : Ty) (q : Pred) (rnd : Nat) (sat : Bool) : Statement (.vscan op d a t q rnd sat) := of_unit rfl rfl
theorem vtopk (d a : Nat) (g : Bool) (k : Nat) (t : Ty) (q : Pred) : Statement (.vtopk d a g k t q) := of_unit rfl rfl
theorem vrng (d : Nat) (t : Ty) (q : Pred) : Statement (.vrng d t q) := of_unit rfl rfl
theorem trd (d : Nat) (col : Bool) (tile b aux : Nat) (t : Ty) (q : Pred) (rnd : Nat) : Statement (.trd d col tile b aux t q rnd) := of_unit rfl rfl
theorem twr (d : Nat) (col : Bool) (tile b aux : Nat) (t : Ty) (q : Pred) : Statement (.twr d col tile b aux t q) := of_unit rfl rfl
theorem ttest (d : Nat) (col : Bool) (tile b aux : Nat) (q : Pred) : Statement (.ttest d col tile b aux q) := of_unit rfl rfl
theorem tzero (tile : Nat) : Statement (.tzero tile) := of_word rfl rfl
theorem vld (d a b : Nat) (z : Size) (q : Pred) (scope : Nat) (nt : Bool) : Statement (.vld d a b z q scope nt) := of_unit rfl rfl
theorem vldLp (d a b : Nat) (z : Size) (q : Pred) : Statement (.vldLp d a b z q) := of_unit rfl rfl
theorem vst (d a b : Nat) (z : Size) (q : Pred) (scope : Nat) (nt : Bool) : Statement (.vst d a b z q scope nt) := of_unit rfl rfl
theorem vstLp (d a b : Nat) (z : Size) (q : Pred) : Statement (.vstLp d a b z q) := of_unit rfl rfl
theorem vatom32 (op : AtOp) (d a b : Nat) (q : Pred) (scope : Nat) (noret sp : Bool) : Statement (.vatom32 op d a b q scope noret sp) := of_unit rfl rfl
theorem vatom64 (op : AtOp) (d a b : Nat) (q : Pred) (scope : Nat) (noret sp : Bool) : Statement (.vatom64 op d a b q scope noret sp) := of_unit rfl rfl
theorem tld (d a b : Nat) (elog : Nat) (q : Pred) (nt : Bool) : Statement (.tld d a b elog q nt) := of_unit rfl rfl
theorem tst (d a b : Nat) (elog : Nat) (q : Pred) (nt : Bool) : Statement (.tst d a b elog q nt) := of_unit rfl rfl
theorem spld (d a b : Nat) (z : Size) (q : Pred) : Statement (.spld d a b z q) := of_unit rfl rfl
theorem splds (d a b : Nat) (q : Pred) : Statement (.splds d a b q) := of_unit rfl rfl
theorem spldSt (d a b : Nat) (q : Pred) : Statement (.spldSt d a b q) := of_unit rfl rfl
theorem spst (d a b : Nat) (z : Size) (q : Pred) : Statement (.spst d a b z q) := of_unit rfl rfl
theorem spstf (d a b : Nat) (q : Pred) : Statement (.spstf d a b q) := of_unit rfl rfl
theorem spset (f : Bool) (a b : Nat) (q : Pred) : Statement (.spset f a b q) := of_unit rfl rfl
theorem waita (c : WCmp) (d a b : Nat) : Statement (.waita c d a b) := of_unit rfl rfl
theorem waitaSp (c : WCmp) (d a b : Nat) : Statement (.waitaSp c d a b) := of_unit rfl rfl
theorem phase (scope : Nat) : Statement (.phase scope) := of_unit rfl rfl
theorem phaseRel (scope : Nat) : Statement (.phaseRel scope) := of_unit rfl rfl
theorem phaseAcq (scope : Nat) : Statement (.phaseAcq scope) := of_unit rfl rfl
theorem drain : Statement .drain := of_word rfl rfl
theorem shinv (d a b : Nat) : Statement (.shinv d a b) := of_unit rfl rfl
theorem emit (d a : Nat) (b : VOp) (n : Nat) (q : Pred) : Statement (.emit d a b n q) := of_unit rfl rfl
theorem emitS (d a b n : Nat) : Statement (.emitS d a b n) := of_unit rfl rfl
theorem recldV (d w c : Nat) (q : Pred) : Statement (.recldV d w c q) := of_unit rfl rfl
theorem recldS (d w c : Nat) : Statement (.recldS d w c) := of_unit rfl rfl
theorem bar (a b : Nat) : Statement (.bar a b) := of_unit rfl rfl
theorem barArv (a b : Nat) : Statement (.barArv a b) := of_unit rfl rfl
theorem barWt (a b : Nat) : Statement (.barWt a b) := of_unit rfl rfl
theorem waitpred : Statement .waitpred := of_word rfl rfl
theorem hintsucc : Statement .hintsucc := of_word rfl rfl
theorem wdq (a : Nat) : Statement (.wdq a) := of_unit rfl rfl
theorem depsetArm (d a b : Nat) : Statement (.depsetArm d a b) := of_unit rfl rfl
theorem depsetDec (d a : Nat) : Statement (.depsetDec d a) := of_unit rfl rfl
theorem mmq (a : Nat) : Statement (.mmq a) := of_unit rfl rfl
theorem cpq (a : Nat) : Statement (.cpq a) := of_unit rfl rfl
theorem freezePointReached (u c : Nat) : Statement (.freezePointReached u c) := of_none rfl rfl
theorem compactorMoveDone (u c : Nat) : Statement (.compactorMoveDone u c) := of_none rfl rfl
theorem placementRound (die : Nat) : Statement (.placementRound die) := of_none rfl rfl
theorem nodeAges (i node : Nat) : Statement (.nodeAges i node) := of_none rfl rfl
theorem reservationTake (i node elem : Nat) : Statement (.reservationTake i node elem) := of_none rfl rfl
theorem lingerExpiry (i node elem : Nat) : Statement (.lingerExpiry i node elem) := of_none rfl rfl
theorem evictionClaim (die : Nat) : Statement (.evictionClaim die) := of_none rfl rfl
theorem evictionSaveComplete (u : Nat) : Statement (.evictionSaveComplete u) := of_none rfl rfl
theorem runlimitExpiry (u : Nat) : Statement (.runlimitExpiry u) := of_none rfl rfl
theorem graphdeadlock (i : Nat) : Statement (.graphdeadlock i) := of_none rfl rfl
theorem instanceComplete (i : Nat) : Statement (.instanceComplete i) := of_none rfl rfl
theorem emitWake (u c : Nat) : Statement (.emitWake u c) := of_none rfl rfl
theorem counterPendingEnqueue (i ctr : Nat) : Statement (.counterPendingEnqueue i ctr) := of_none rfl rfl
theorem loamSpill (die cluster : Nat) : Statement (.loamSpill die cluster) := of_none rfl rfl
theorem loamRefill (i node elem : Nat) : Statement (.loamRefill i node elem) := of_none rfl rfl
theorem remoteRecordArrival (src die sn tag : Nat) (granted : Bool) (r : Record) : Statement (.remoteRecordArrival src die sn tag granted r) := of_none rfl rfl
theorem remoteRecordRefused (id : Nat) : Statement (.remoteRecordRefused id) := of_none rfl rfl
theorem dropNotice (id : Nat) : Statement (.dropNotice id) := of_none rfl rfl
theorem reservationRequest (src tag node elem n : Nat) : Statement (.reservationRequest src tag node elem n) := of_none rfl rfl
theorem reservationGrant (dev tag node elem n : Nat) : Statement (.reservationGrant dev tag node elem n) := of_none rfl rfl
theorem reservationExpiry (id : Nat) : Statement (.reservationExpiry id) := of_none rfl rfl
theorem remoteRecordAck (id : Nat) : Statement (.remoteRecordAck id) := of_none rfl rfl
theorem wdqAnswer (id : Nat) : Statement (.wdqAnswer id) := of_none rfl rfl
theorem taskMma (core id : Nat) : Statement (.taskMma core id) := of_none rfl rfl
theorem taskMmaSc (core id : Nat) : Statement (.taskMmaSc core id) := of_none rfl rfl
theorem taskMmaInt (core id : Nat) : Statement (.taskMmaInt core id) := of_none rfl rfl
theorem taskRingdef (core id : Nat) : Statement (.taskRingdef core id) := of_none rfl rfl
theorem taskTclear (core id : Nat) : Statement (.taskTclear core id) := of_none rfl rfl
theorem matrixStep (core id : Nat) : Statement (.matrixStep core id) := of_none rfl rfl
theorem jobCopy (core id n : Nat) : Statement (.jobCopy core id n) := of_none rfl rfl
theorem jobCopy2d (core id n : Nat) : Statement (.jobCopy2d core id n) := of_none rfl rfl
theorem jobGatherbt (core id n : Nat) : Statement (.jobGatherbt core id n) := of_none rfl rfl
theorem jobWiden (core id n : Nat) : Statement (.jobWiden core id n) := of_none rfl rfl
theorem jobFillwb (core id n : Nat) : Statement (.jobFillwb core id n) := of_none rfl rfl
theorem itemRetire (core id : Nat) : Statement (.itemRetire core id) := of_none rfl rfl
theorem itemFailure (core id : Nat) : Statement (.itemFailure core id) := of_none rfl rfl
theorem cowCopyDone (die ctx page : Nat) : Statement (.cowCopyDone die ctx page) := of_none rfl rfl
theorem translationOutcome (u c page : Nat) (rewalk : Bool) : Statement (.translationOutcome u c page rewalk) := of_none rfl rfl
theorem pageAnswer (die page ctx gen : Nat) (fail : Bool) : Statement (.pageAnswer die page ctx gen fail) := of_none rfl rfl
theorem shootdown (die ctx page : Nat) : Statement (.shootdown die ctx page) := of_none rfl rfl
theorem contextKill (ctx : Nat) : Statement (.contextKill ctx) := of_none rfl rfl
theorem loadReturn (id : Nat) (stamps : List Nat) : Statement (.loadReturn id stamps) := of_none rfl rfl
theorem storePerformed (id : Nat) (l1 : Bool) : Statement (.storePerformed id l1) := of_none rfl rfl
theorem remoteRequest (src rid ctx gen : Nat) (va : Word) (k : ReqKind) : Statement (.remoteRequest src rid ctx gen va k) := of_none rfl rfl
theorem remoteResponse (rid : Nat) (v : Word) (fail : Bool) : Statement (.remoteResponse rid v fail) := of_none rfl rfl
theorem remoteTimeout (rid : Nat) : Statement (.remoteTimeout rid) := of_none rfl rfl
theorem waitaWatchAnswer (rid : Nat) (v : Word) : Statement (.waitaWatchAnswer rid v) := of_none rfl rfl
theorem waitaWatchRenew (rid : Nat) : Statement (.waitaWatchRenew rid) := of_none rfl rfl
theorem shinvRelay (parent rid tensor : Nat) (children : List Nat) : Statement (.shinvRelay parent rid tensor children) := of_none rfl rfl
theorem shinvAck (id child : Nat) : Statement (.shinvAck id child) := of_none rfl rfl
theorem shinvFence (id child : Nat) (grand : List Nat) : Statement (.shinvFence id child grand) := of_none rfl rfl
theorem atsTranslationResponse (ctx page : Nat) (bus : Option Nat) (w : Bool) : Statement (.atsTranslationResponse ctx page bus w) := of_none rfl rfl
theorem atsInvalidation (ctx page : Nat) : Statement (.atsInvalidation ctx page) := of_none rfl rfl
theorem priResponse (ctx page : Nat) (ok : Bool) : Statement (.priResponse ctx page ok) := of_none rfl rfl
theorem laneFailure (port lane : Nat) : Statement (.laneFailure port lane) := of_none rfl rfl
theorem deviceAdmit (dev : Nat) : Statement (.deviceAdmit dev) := of_none rfl rfl
theorem mailboxSend (i j : Nat) (msg : List Word) : Statement (.mailboxSend i j msg) := of_none rfl rfl
theorem uncorrectableError (line : Nat) : Statement (.uncorrectableError line) := of_none rfl rfl
theorem correctedError : Statement .correctedError := of_none rfl rfl
theorem thermalLimit (block : Nat) : Statement (.thermalLimit block) := of_none rfl rfl
theorem reset : Statement .reset := of_none rfl rfl
theorem firmwareVerifyDone (devid porten membytes : Nat) : Statement (.firmwareVerifyDone devid porten membytes) := of_none rfl rfl
theorem fwlockWrite (v : Word) : Statement (.fwlockWrite v) := of_none rfl rfl
theorem loadWindowWrite (off : Nat) (data : List Byte) : Statement (.loadWindowWrite off data) := of_none rfl rfl
theorem registerWrite (off : Nat) (v : Word) : Statement (.registerWrite off v) := of_none rfl rfl
theorem getVersion : Statement .getVersion := of_none rfl rfl
theorem getCapabilities : Statement .getCapabilities := of_none rfl rfl
theorem negotiateAlgorithms : Statement .negotiateAlgorithms := of_none rfl rfl
theorem getDigests : Statement .getDigests := of_none rfl rfl
theorem getCertificate : Statement .getCertificate := of_none rfl rfl
theorem challenge (nonce : List Byte) : Statement (.challenge nonce) := of_none rfl rfl
theorem getMeasurements (nonce : List Byte) : Statement (.getMeasurements nonce) := of_none rfl rfl
theorem walkerVisit (qsb : Word) : Statement (.walkerVisit qsb) := of_none rfl rfl
theorem packetNop (qsb : Word) : Statement (.packetNop qsb) := of_none rfl rfl
theorem graphLaunch (qsb : Word) : Statement (.graphLaunch qsb) := of_none rfl rfl
theorem writeValue (qsb : Word) : Statement (.writeValue qsb) := of_none rfl rfl
theorem writeValueDone (qsb : Word) : Statement (.writeValueDone qsb) := of_none rfl rfl
theorem waitValue (qsb : Word) : Statement (.waitValue qsb) := of_none rfl rfl
theorem indirect (qsb : Word) : Statement (.indirect qsb) := of_none rfl rfl
theorem checkpointStart (bound : Nat) : Statement (.checkpointStart bound) := of_none rfl rfl
theorem checkpointQuiesced : Statement .checkpointQuiesced := of_none rfl rfl
theorem checkpointTimeout : Statement .checkpointTimeout := of_none rfl rfl
theorem checkpointRestore (k : Nat) : Statement (.checkpointRestore k) := of_none rfl rfl
theorem waitaWatch (src rid ctx gen : Nat) (va : Word) : Statement (.waitaWatch src rid ctx gen va) := of_none rfl rfl
theorem wakeConditionRecheck (u c : Nat) : Statement (.wakeConditionRecheck u c) := of_none rfl rfl

end Sys2Proof.Laws.UnitLength
end

