-- ==== Sys2Proof/Laws/State.lean ====
section
/-! SUPPORT. What each update of the state leaves of each field, and what it gives the one it changes. -/

namespace Sys2Proof.Machine

set_option Elab.async false

/-! One crew changed -/

@[simp] theorem State.modCrew_cur (s : State) (u i : Nat) (k : Crew → Crew) : (s.modCrew u i k).cur = s.cur := rfl
@[simp] theorem State.modCrew_crews (s : State) (u i : Nat) (k : Crew → Crew) : (s.modCrew u i k).crews = s.crews.map (fun c => if c.uid == u && c.idx == i then k c else c) :=
    rfl
@[simp] theorem State.modCrew_cohorts (s : State) (u i : Nat) (k : Crew → Crew) : (s.modCrew u i k).cohorts = s.cohorts :=
    rfl
@[simp] theorem State.modCrew_insts (s : State) (u i : Nat) (k : Crew → Crew) : (s.modCrew u i k).insts = s.insts := rfl
@[simp] theorem State.modCrew_mem (s : State) (u i : Nat) (k : Crew → Crew) : (s.modCrew u i k).mem = s.mem := rfl
@[simp] theorem State.modCrew_mmu (s : State) (u i : Nat) (k : Crew → Crew) : (s.modCrew u i k).mmu = s.mmu := rfl
@[simp] theorem State.modCrew_eng (s : State) (u i : Nat) (k : Crew → Crew) : (s.modCrew u i k).eng = s.eng := rfl
@[simp] theorem State.modCrew_sched (s : State) (u i : Nat) (k : Crew → Crew) : (s.modCrew u i k).sched = s.sched := rfl
@[simp] theorem State.modCrew_fab (s : State) (u i : Nat) (k : Crew → Crew) : (s.modCrew u i k).fab = s.fab := rfl
@[simp] theorem State.modCrew_host (s : State) (u i : Nat) (k : Crew → Crew) : (s.modCrew u i k).host = s.host := rfl
@[simp] theorem State.modCrew_clk (s : State) (u i : Nat) (k : Crew → Crew) : (s.modCrew u i k).clk = s.clk := rfl
@[simp] theorem State.modCrew_fresh (s : State) (u i : Nat) (k : Crew → Crew) : (s.modCrew u i k).fresh = s.fresh := rfl
@[simp] theorem State.modCrew_agenda (s : State) (u i : Nat) (k : Crew → Crew) : (s.modCrew u i k).agenda = s.agenda :=
    rfl

/-! A crew stored back -/

@[simp] theorem State.putCrew_cur (s : State) (c : Crew) : (s.putCrew c).cur = s.cur := rfl
@[simp] theorem State.putCrew_cohorts (s : State) (c : Crew) : (s.putCrew c).cohorts = s.cohorts := rfl
@[simp] theorem State.putCrew_insts (s : State) (c : Crew) : (s.putCrew c).insts = s.insts := rfl
@[simp] theorem State.putCrew_mem (s : State) (c : Crew) : (s.putCrew c).mem = s.mem := rfl
@[simp] theorem State.putCrew_mmu (s : State) (c : Crew) : (s.putCrew c).mmu = s.mmu := rfl
@[simp] theorem State.putCrew_eng (s : State) (c : Crew) : (s.putCrew c).eng = s.eng := rfl
@[simp] theorem State.putCrew_sched (s : State) (c : Crew) : (s.putCrew c).sched = s.sched := rfl
@[simp] theorem State.putCrew_fab (s : State) (c : Crew) : (s.putCrew c).fab = s.fab := rfl
@[simp] theorem State.putCrew_host (s : State) (c : Crew) : (s.putCrew c).host = s.host := rfl
@[simp] theorem State.putCrew_clk (s : State) (c : Crew) : (s.putCrew c).clk = s.clk := rfl
@[simp] theorem State.putCrew_fresh (s : State) (c : Crew) : (s.putCrew c).fresh = s.fresh := rfl
@[simp] theorem State.putCrew_agenda (s : State) (c : Crew) : (s.putCrew c).agenda = s.agenda := rfl

/-! One cohort changed -/

@[simp] theorem State.modCohort_cur (s : State) (u : Nat) (k : Cohort → Cohort) : (s.modCohort u k).cur = s.cur := rfl
@[simp] theorem State.modCohort_crews (s : State) (u : Nat) (k : Cohort → Cohort) : (s.modCohort u k).crews = s.crews :=
    rfl
@[simp] theorem State.modCohort_cohorts (s : State) (u : Nat) (k : Cohort → Cohort) : (s.modCohort u k).cohorts = s.cohorts.map (fun h => if h.uid == u then k h else h) :=
    rfl
@[simp] theorem State.modCohort_insts (s : State) (u : Nat) (k : Cohort → Cohort) : (s.modCohort u k).insts = s.insts :=
    rfl
@[simp] theorem State.modCohort_mem (s : State) (u : Nat) (k : Cohort → Cohort) : (s.modCohort u k).mem = s.mem := rfl
@[simp] theorem State.modCohort_mmu (s : State) (u : Nat) (k : Cohort → Cohort) : (s.modCohort u k).mmu = s.mmu := rfl
@[simp] theorem State.modCohort_eng (s : State) (u : Nat) (k : Cohort → Cohort) : (s.modCohort u k).eng = s.eng := rfl
@[simp] theorem State.modCohort_sched (s : State) (u : Nat) (k : Cohort → Cohort) : (s.modCohort u k).sched = s.sched :=
    rfl
@[simp] theorem State.modCohort_fab (s : State) (u : Nat) (k : Cohort → Cohort) : (s.modCohort u k).fab = s.fab := rfl
@[simp] theorem State.modCohort_host (s : State) (u : Nat) (k : Cohort → Cohort) : (s.modCohort u k).host = s.host :=
    rfl
@[simp] theorem State.modCohort_clk (s : State) (u : Nat) (k : Cohort → Cohort) : (s.modCohort u k).clk = s.clk := rfl
@[simp] theorem State.modCohort_fresh (s : State) (u : Nat) (k : Cohort → Cohort) : (s.modCohort u k).fresh = s.fresh :=
    rfl
@[simp] theorem State.modCohort_agenda (s : State) (u : Nat) (k : Cohort → Cohort) : (s.modCohort u k).agenda = s.agenda :=
    rfl

/-! One instance changed -/

@[simp] theorem State.modInst_cur (s : State) (i : Nat) (k : Inst → Inst) : (s.modInst i k).cur = s.cur := rfl
@[simp] theorem State.modInst_crews (s : State) (i : Nat) (k : Inst → Inst) : (s.modInst i k).crews = s.crews := rfl
@[simp] theorem State.modInst_cohorts (s : State) (i : Nat) (k : Inst → Inst) : (s.modInst i k).cohorts = s.cohorts :=
    rfl
@[simp] theorem State.modInst_insts (s : State) (i : Nat) (k : Inst → Inst) : (s.modInst i k).insts = s.insts.map (fun a => if a.slot == i then k a else a) :=
    rfl
@[simp] theorem State.modInst_mem (s : State) (i : Nat) (k : Inst → Inst) : (s.modInst i k).mem = s.mem := rfl
@[simp] theorem State.modInst_mmu (s : State) (i : Nat) (k : Inst → Inst) : (s.modInst i k).mmu = s.mmu := rfl
@[simp] theorem State.modInst_eng (s : State) (i : Nat) (k : Inst → Inst) : (s.modInst i k).eng = s.eng := rfl
@[simp] theorem State.modInst_sched (s : State) (i : Nat) (k : Inst → Inst) : (s.modInst i k).sched = s.sched := rfl
@[simp] theorem State.modInst_fab (s : State) (i : Nat) (k : Inst → Inst) : (s.modInst i k).fab = s.fab := rfl
@[simp] theorem State.modInst_host (s : State) (i : Nat) (k : Inst → Inst) : (s.modInst i k).host = s.host := rfl
@[simp] theorem State.modInst_clk (s : State) (i : Nat) (k : Inst → Inst) : (s.modInst i k).clk = s.clk := rfl
@[simp] theorem State.modInst_fresh (s : State) (i : Nat) (k : Inst → Inst) : (s.modInst i k).fresh = s.fresh := rfl
@[simp] theorem State.modInst_agenda (s : State) (i : Nat) (k : Inst → Inst) : (s.modInst i k).agenda = s.agenda := rfl

/-! The crews of a cohort changed -/

@[simp] theorem State.modCrews_cur (s : State) (u : Nat) (k : Crew → Crew) : (s.modCrews u k).cur = s.cur := rfl
@[simp] theorem State.modCrews_crews (s : State) (u : Nat) (k : Crew → Crew) : (s.modCrews u k).crews = s.crews.map (fun c => if c.uid == u then k c else c) :=
    rfl
@[simp] theorem State.modCrews_cohorts (s : State) (u : Nat) (k : Crew → Crew) : (s.modCrews u k).cohorts = s.cohorts :=
    rfl
@[simp] theorem State.modCrews_insts (s : State) (u : Nat) (k : Crew → Crew) : (s.modCrews u k).insts = s.insts := rfl
@[simp] theorem State.modCrews_mem (s : State) (u : Nat) (k : Crew → Crew) : (s.modCrews u k).mem = s.mem := rfl
@[simp] theorem State.modCrews_mmu (s : State) (u : Nat) (k : Crew → Crew) : (s.modCrews u k).mmu = s.mmu := rfl
@[simp] theorem State.modCrews_eng (s : State) (u : Nat) (k : Crew → Crew) : (s.modCrews u k).eng = s.eng := rfl
@[simp] theorem State.modCrews_sched (s : State) (u : Nat) (k : Crew → Crew) : (s.modCrews u k).sched = s.sched := rfl
@[simp] theorem State.modCrews_fab (s : State) (u : Nat) (k : Crew → Crew) : (s.modCrews u k).fab = s.fab := rfl
@[simp] theorem State.modCrews_host (s : State) (u : Nat) (k : Crew → Crew) : (s.modCrews u k).host = s.host := rfl
@[simp] theorem State.modCrews_clk (s : State) (u : Nat) (k : Crew → Crew) : (s.modCrews u k).clk = s.clk := rfl
@[simp] theorem State.modCrews_fresh (s : State) (u : Nat) (k : Crew → Crew) : (s.modCrews u k).fresh = s.fresh := rfl
@[simp] theorem State.modCrews_agenda (s : State) (u : Nat) (k : Crew → Crew) : (s.modCrews u k).agenda = s.agenda :=
    rfl

/-! The next order number -/

@[simp] theorem State.bumpSeq_cur (s : State) : (s.bumpSeq).cur = s.cur := rfl
@[simp] theorem State.bumpSeq_crews (s : State) : (s.bumpSeq).crews = s.crews := rfl
@[simp] theorem State.bumpSeq_cohorts (s : State) : (s.bumpSeq).cohorts = s.cohorts := rfl
@[simp] theorem State.bumpSeq_insts (s : State) : (s.bumpSeq).insts = s.insts := rfl
@[simp] theorem State.bumpSeq_mem (s : State) : (s.bumpSeq).mem = s.mem := rfl
@[simp] theorem State.bumpSeq_mmu (s : State) : (s.bumpSeq).mmu = s.mmu := rfl
@[simp] theorem State.bumpSeq_eng (s : State) : (s.bumpSeq).eng = s.eng := rfl
@[simp] theorem State.bumpSeq_sched (s : State) : (s.bumpSeq).sched = s.sched := rfl
@[simp] theorem State.bumpSeq_fab (s : State) : (s.bumpSeq).fab = s.fab := rfl
@[simp] theorem State.bumpSeq_host (s : State) : (s.bumpSeq).host = s.host := rfl
@[simp] theorem State.bumpSeq_clk (s : State) : (s.bumpSeq).clk = s.clk := rfl
@[simp] theorem State.bumpSeq_fresh (s : State) : (s.bumpSeq).fresh = { s.fresh with seq := s.fresh.seq + 1 } := rfl
@[simp] theorem State.bumpSeq_agenda (s : State) : (s.bumpSeq).agenda = s.agenda := rfl

/-! The next access number -/

@[simp] theorem State.bumpId_cur (s : State) : (s.bumpId).cur = s.cur := rfl
@[simp] theorem State.bumpId_crews (s : State) : (s.bumpId).crews = s.crews := rfl
@[simp] theorem State.bumpId_cohorts (s : State) : (s.bumpId).cohorts = s.cohorts := rfl
@[simp] theorem State.bumpId_insts (s : State) : (s.bumpId).insts = s.insts := rfl
@[simp] theorem State.bumpId_mem (s : State) : (s.bumpId).mem = s.mem := rfl
@[simp] theorem State.bumpId_mmu (s : State) : (s.bumpId).mmu = s.mmu := rfl
@[simp] theorem State.bumpId_eng (s : State) : (s.bumpId).eng = s.eng := rfl
@[simp] theorem State.bumpId_sched (s : State) : (s.bumpId).sched = s.sched := rfl
@[simp] theorem State.bumpId_fab (s : State) : (s.bumpId).fab = s.fab := rfl
@[simp] theorem State.bumpId_host (s : State) : (s.bumpId).host = s.host := rfl
@[simp] theorem State.bumpId_clk (s : State) : (s.bumpId).clk = s.clk := rfl
@[simp] theorem State.bumpId_fresh (s : State) : (s.bumpId).fresh = { s.fresh with id := s.fresh.id + 1 } := rfl
@[simp] theorem State.bumpId_agenda (s : State) : (s.bumpId).agenda = s.agenda := rfl

/-! A message sent -/

@[simp] theorem State.send_cur (s : State) (m : Msg) : (s.send m).cur = s.cur := rfl
@[simp] theorem State.send_crews (s : State) (m : Msg) : (s.send m).crews = s.crews := rfl
@[simp] theorem State.send_cohorts (s : State) (m : Msg) : (s.send m).cohorts = s.cohorts := rfl
@[simp] theorem State.send_insts (s : State) (m : Msg) : (s.send m).insts = s.insts := rfl
@[simp] theorem State.send_mem (s : State) (m : Msg) : (s.send m).mem = s.mem := rfl
@[simp] theorem State.send_mmu (s : State) (m : Msg) : (s.send m).mmu = s.mmu := rfl
@[simp] theorem State.send_eng (s : State) (m : Msg) : (s.send m).eng = s.eng := rfl
@[simp] theorem State.send_sched (s : State) (m : Msg) : (s.send m).sched = s.sched := rfl
@[simp] theorem State.send_fab (s : State) (m : Msg) : (s.send m).fab = { s.fab with out := s.fab.out ++ [m] } := rfl
@[simp] theorem State.send_host (s : State) (m : Msg) : (s.send m).host = s.host := rfl
@[simp] theorem State.send_clk (s : State) (m : Msg) : (s.send m).clk = s.clk := rfl
@[simp] theorem State.send_fresh (s : State) (m : Msg) : (s.send m).fresh = s.fresh := rfl
@[simp] theorem State.send_agenda (s : State) (m : Msg) : (s.send m).agenda = s.agenda := rfl

/-! A request put on its way -/

@[simp] theorem State.putRemote_cur (s : State) (r : Remote) : (s.putRemote r).cur = s.cur := rfl
@[simp] theorem State.putRemote_crews (s : State) (r : Remote) : (s.putRemote r).crews = s.crews := rfl
@[simp] theorem State.putRemote_cohorts (s : State) (r : Remote) : (s.putRemote r).cohorts = s.cohorts := rfl
@[simp] theorem State.putRemote_insts (s : State) (r : Remote) : (s.putRemote r).insts = s.insts := rfl
@[simp] theorem State.putRemote_mem (s : State) (r : Remote) : (s.putRemote r).mem = { s.mem with remote := s.mem.remote ++ [r] } := rfl
@[simp] theorem State.putRemote_mmu (s : State) (r : Remote) : (s.putRemote r).mmu = s.mmu := rfl
@[simp] theorem State.putRemote_eng (s : State) (r : Remote) : (s.putRemote r).eng = s.eng := rfl
@[simp] theorem State.putRemote_sched (s : State) (r : Remote) : (s.putRemote r).sched = s.sched := rfl
@[simp] theorem State.putRemote_fab (s : State) (r : Remote) : (s.putRemote r).fab = s.fab := rfl
@[simp] theorem State.putRemote_host (s : State) (r : Remote) : (s.putRemote r).host = s.host := rfl
@[simp] theorem State.putRemote_clk (s : State) (r : Remote) : (s.putRemote r).clk = s.clk := rfl
@[simp] theorem State.putRemote_fresh (s : State) (r : Remote) : (s.putRemote r).fresh = { s.fresh with id := s.fresh.id + 1 } := rfl
@[simp] theorem State.putRemote_agenda (s : State) (r : Remote) : (s.putRemote r).agenda = s.agenda := rfl

/-! A request ended -/

@[simp] theorem State.endRemote_cur (s : State) (rid : Nat) : (s.endRemote rid).cur = s.cur := rfl
@[simp] theorem State.endRemote_crews (s : State) (rid : Nat) : (s.endRemote rid).crews = s.crews := rfl
@[simp] theorem State.endRemote_cohorts (s : State) (rid : Nat) : (s.endRemote rid).cohorts = s.cohorts := rfl
@[simp] theorem State.endRemote_insts (s : State) (rid : Nat) : (s.endRemote rid).insts = s.insts := rfl
@[simp] theorem State.endRemote_mem (s : State) (rid : Nat) : (s.endRemote rid).mem = { s.mem with remote := s.mem.remote.filter (fun r => r.rid != rid) } := rfl
@[simp] theorem State.endRemote_mmu (s : State) (rid : Nat) : (s.endRemote rid).mmu = s.mmu := rfl
@[simp] theorem State.endRemote_eng (s : State) (rid : Nat) : (s.endRemote rid).eng = s.eng := rfl
@[simp] theorem State.endRemote_sched (s : State) (rid : Nat) : (s.endRemote rid).sched = s.sched := rfl
@[simp] theorem State.endRemote_fab (s : State) (rid : Nat) : (s.endRemote rid).fab = s.fab := rfl
@[simp] theorem State.endRemote_host (s : State) (rid : Nat) : (s.endRemote rid).host = s.host := rfl
@[simp] theorem State.endRemote_clk (s : State) (rid : Nat) : (s.endRemote rid).clk = s.clk := rfl
@[simp] theorem State.endRemote_fresh (s : State) (rid : Nat) : (s.endRemote rid).fresh = s.fresh := rfl
@[simp] theorem State.endRemote_agenda (s : State) (rid : Nat) : (s.endRemote rid).agenda = s.agenda := rfl

/-! The answer of a request -/

@[simp] theorem State.setAns_cur (s : State) (rid : Nat) (k : Remote → Remote) : (s.setAns rid k).cur = s.cur := rfl
@[simp] theorem State.setAns_crews (s : State) (rid : Nat) (k : Remote → Remote) : (s.setAns rid k).crews = s.crews :=
    rfl
@[simp] theorem State.setAns_cohorts (s : State) (rid : Nat) (k : Remote → Remote) : (s.setAns rid k).cohorts = s.cohorts :=
    rfl
@[simp] theorem State.setAns_insts (s : State) (rid : Nat) (k : Remote → Remote) : (s.setAns rid k).insts = s.insts :=
    rfl
@[simp] theorem State.setAns_mem (s : State) (rid : Nat) (k : Remote → Remote) : (s.setAns rid k).mem = { s.mem with remote := s.mem.remote.map (fun r => if r.rid == rid then k r else r) } := rfl
@[simp] theorem State.setAns_mmu (s : State) (rid : Nat) (k : Remote → Remote) : (s.setAns rid k).mmu = s.mmu := rfl
@[simp] theorem State.setAns_eng (s : State) (rid : Nat) (k : Remote → Remote) : (s.setAns rid k).eng = s.eng := rfl
@[simp] theorem State.setAns_sched (s : State) (rid : Nat) (k : Remote → Remote) : (s.setAns rid k).sched = s.sched :=
    rfl
@[simp] theorem State.setAns_fab (s : State) (rid : Nat) (k : Remote → Remote) : (s.setAns rid k).fab = s.fab := rfl
@[simp] theorem State.setAns_host (s : State) (rid : Nat) (k : Remote → Remote) : (s.setAns rid k).host = s.host := rfl
@[simp] theorem State.setAns_clk (s : State) (rid : Nat) (k : Remote → Remote) : (s.setAns rid k).clk = s.clk := rfl
@[simp] theorem State.setAns_fresh (s : State) (rid : Nat) (k : Remote → Remote) : (s.setAns rid k).fresh = s.fresh :=
    rfl
@[simp] theorem State.setAns_agenda (s : State) (rid : Nat) (k : Remote → Remote) : (s.setAns rid k).agenda = s.agenda :=
    rfl

/-! A late response counted -/

@[simp] theorem State.countLate_cur (s : State) : (s.countLate).cur = s.cur := rfl
@[simp] theorem State.countLate_crews (s : State) : (s.countLate).crews = s.crews := rfl
@[simp] theorem State.countLate_cohorts (s : State) : (s.countLate).cohorts = s.cohorts := rfl
@[simp] theorem State.countLate_insts (s : State) : (s.countLate).insts = s.insts := rfl
@[simp] theorem State.countLate_mem (s : State) : (s.countLate).mem = s.mem := rfl
@[simp] theorem State.countLate_mmu (s : State) : (s.countLate).mmu = s.mmu := rfl
@[simp] theorem State.countLate_eng (s : State) : (s.countLate).eng = s.eng := rfl
@[simp] theorem State.countLate_sched (s : State) : (s.countLate).sched = s.sched := rfl
@[simp] theorem State.countLate_fab (s : State) : (s.countLate).fab = s.fab := rfl
@[simp] theorem State.countLate_clk (s : State) : (s.countLate).clk = s.clk := rfl
@[simp] theorem State.countLate_fresh (s : State) : (s.countLate).fresh = s.fresh := rfl
@[simp] theorem State.countLate_agenda (s : State) : (s.countLate).agenda = s.agenda := rfl

/-! A device fenced -/

@[simp] theorem State.setFence_cur (s : State) (dev : Nat) : (s.setFence dev).cur = s.cur := rfl
@[simp] theorem State.setFence_cohorts (s : State) (dev : Nat) : (s.setFence dev).cohorts = s.cohorts := rfl
@[simp] theorem State.setFence_insts (s : State) (dev : Nat) : (s.setFence dev).insts = s.insts := rfl
@[simp] theorem State.setFence_mem (s : State) (dev : Nat) : (s.setFence dev).mem = s.mem := rfl
@[simp] theorem State.setFence_mmu (s : State) (dev : Nat) : (s.setFence dev).mmu = s.mmu := rfl
@[simp] theorem State.setFence_eng (s : State) (dev : Nat) : (s.setFence dev).eng = s.eng := rfl
@[simp] theorem State.setFence_sched (s : State) (dev : Nat) : (s.setFence dev).sched = s.sched := rfl
@[simp] theorem State.setFence_host (s : State) (dev : Nat) : (s.setFence dev).host = s.host := rfl
@[simp] theorem State.setFence_clk (s : State) (dev : Nat) : (s.setFence dev).clk = s.clk := rfl
@[simp] theorem State.setFence_fresh (s : State) (dev : Nat) : (s.setFence dev).fresh = s.fresh := rfl
@[simp] theorem State.setFence_agenda (s : State) (dev : Nat) : (s.setFence dev).agenda = s.agenda := rfl

/-! An engine item stored back -/

@[simp] theorem State.putItem_cur (s : State) (it : Item) : (s.putItem it).cur = s.cur := rfl
@[simp] theorem State.putItem_crews (s : State) (it : Item) : (s.putItem it).crews = s.crews := rfl
@[simp] theorem State.putItem_cohorts (s : State) (it : Item) : (s.putItem it).cohorts = s.cohorts := rfl
@[simp] theorem State.putItem_insts (s : State) (it : Item) : (s.putItem it).insts = s.insts := rfl
@[simp] theorem State.putItem_mem (s : State) (it : Item) : (s.putItem it).mem = s.mem := rfl
@[simp] theorem State.putItem_mmu (s : State) (it : Item) : (s.putItem it).mmu = s.mmu := rfl
@[simp] theorem State.putItem_sched (s : State) (it : Item) : (s.putItem it).sched = s.sched := rfl
@[simp] theorem State.putItem_fab (s : State) (it : Item) : (s.putItem it).fab = s.fab := rfl
@[simp] theorem State.putItem_host (s : State) (it : Item) : (s.putItem it).host = s.host := rfl
@[simp] theorem State.putItem_clk (s : State) (it : Item) : (s.putItem it).clk = s.clk := rfl
@[simp] theorem State.putItem_fresh (s : State) (it : Item) : (s.putItem it).fresh = s.fresh := rfl
@[simp] theorem State.putItem_agenda (s : State) (it : Item) : (s.putItem it).agenda = s.agenda := rfl

/-! An engine item gone -/

@[simp] theorem State.dropItem_cur (s : State) (it : Item) : (s.dropItem it).cur = s.cur := rfl
@[simp] theorem State.dropItem_crews (s : State) (it : Item) : (s.dropItem it).crews = s.crews := rfl
@[simp] theorem State.dropItem_cohorts (s : State) (it : Item) : (s.dropItem it).cohorts = s.cohorts := rfl
@[simp] theorem State.dropItem_insts (s : State) (it : Item) : (s.dropItem it).insts = s.insts := rfl
@[simp] theorem State.dropItem_mem (s : State) (it : Item) : (s.dropItem it).mem = s.mem := rfl
@[simp] theorem State.dropItem_mmu (s : State) (it : Item) : (s.dropItem it).mmu = s.mmu := rfl
@[simp] theorem State.dropItem_sched (s : State) (it : Item) : (s.dropItem it).sched = s.sched := rfl
@[simp] theorem State.dropItem_fab (s : State) (it : Item) : (s.dropItem it).fab = s.fab := rfl
@[simp] theorem State.dropItem_host (s : State) (it : Item) : (s.dropItem it).host = s.host := rfl
@[simp] theorem State.dropItem_clk (s : State) (it : Item) : (s.dropItem it).clk = s.clk := rfl
@[simp] theorem State.dropItem_fresh (s : State) (it : Item) : (s.dropItem it).fresh = s.fresh := rfl
@[simp] theorem State.dropItem_agenda (s : State) (it : Item) : (s.dropItem it).agenda = s.agenda := rfl

/-! Bytes written at a home -/

@[simp] theorem State.writeKey_cur (s : State) (k : Nat) (bs : List Byte) : (s.writeKey k bs).cur = s.cur := rfl
@[simp] theorem State.writeKey_crews (s : State) (k : Nat) (bs : List Byte) : (s.writeKey k bs).crews = s.crews := rfl
@[simp] theorem State.writeKey_cohorts (s : State) (k : Nat) (bs : List Byte) : (s.writeKey k bs).cohorts = s.cohorts :=
    rfl
@[simp] theorem State.writeKey_insts (s : State) (k : Nat) (bs : List Byte) : (s.writeKey k bs).insts = s.insts := rfl
@[simp] theorem State.writeKey_mmu (s : State) (k : Nat) (bs : List Byte) : (s.writeKey k bs).mmu = s.mmu := rfl
@[simp] theorem State.writeKey_eng (s : State) (k : Nat) (bs : List Byte) : (s.writeKey k bs).eng = s.eng := rfl
@[simp] theorem State.writeKey_sched (s : State) (k : Nat) (bs : List Byte) : (s.writeKey k bs).sched = s.sched := rfl
@[simp] theorem State.writeKey_fab (s : State) (k : Nat) (bs : List Byte) : (s.writeKey k bs).fab = s.fab := rfl
@[simp] theorem State.writeKey_host (s : State) (k : Nat) (bs : List Byte) : (s.writeKey k bs).host = s.host := rfl
@[simp] theorem State.writeKey_clk (s : State) (k : Nat) (bs : List Byte) : (s.writeKey k bs).clk = s.clk := rfl
@[simp] theorem State.writeKey_fresh (s : State) (k : Nat) (bs : List Byte) : (s.writeKey k bs).fresh = { s.fresh with stamp := s.fresh.stamp + 1 } := rfl
@[simp] theorem State.writeKey_agenda (s : State) (k : Nat) (bs : List Byte) : (s.writeKey k bs).agenda = s.agenda :=
    rfl

/-! The program counter of a crew -/

@[simp] theorem Crew.setPc_uid (c : Crew) (pc : Word) : (c.setPc pc).uid = c.uid := rfl
@[simp] theorem Crew.setPc_idx (c : Crew) (pc : Word) : (c.setPc pc).idx = c.idx := rfl
@[simp] theorem Crew.setPc_stage (c : Crew) (pc : Word) : (c.setPc pc).stage = c.stage := rfl
@[simp] theorem Crew.setPc_r (c : Crew) (pc : Word) : (c.setPc pc).r = { c.r with pc := pc } := rfl
@[simp] theorem Crew.setPc_m (c : Crew) (pc : Word) : (c.setPc pc).m = c.m := rfl
@[simp] theorem Crew.setPc_g (c : Crew) (pc : Word) : (c.setPc pc).g = c.g := rfl
@[simp] theorem Crew.setPc_f (c : Crew) (pc : Word) : (c.setPc pc).f = c.f := rfl
@[simp] theorem Crew.setPc_h (c : Crew) (pc : Word) : (c.setPc pc).h = c.h := rfl
@[simp] theorem Crew.setPc_w (c : Crew) (pc : Word) : (c.setPc pc).w = c.w := rfl
@[simp] theorem Crew.setPc_x (c : Crew) (pc : Word) : (c.setPc pc).x = c.x := rfl
@[simp] theorem Crew.setPc_size (c : Crew) (pc : Word) : (c.setPc pc).size = c.size := rfl
@[simp] theorem Crew.setPc_pend (c : Crew) (pc : Word) : (c.setPc pc).pend = c.pend := rfl
@[simp] theorem Crew.setPc_fail (c : Crew) (pc : Word) : (c.setPc pc).fail = c.fail := rfl
@[simp] theorem Crew.setPc_slot (c : Crew) (pc : Word) : (c.setPc pc).slot = c.slot := rfl
@[simp] theorem Crew.setPc_ext (c : Crew) (pc : Word) : (c.setPc pc).ext = c.ext := rfl

/-! The execution mask of a crew -/

@[simp] theorem Crew.setXm_uid (c : Crew) (v : Mask) : (c.setXm v).uid = c.uid := rfl
@[simp] theorem Crew.setXm_idx (c : Crew) (v : Mask) : (c.setXm v).idx = c.idx := rfl
@[simp] theorem Crew.setXm_stage (c : Crew) (v : Mask) : (c.setXm v).stage = c.stage := rfl
@[simp] theorem Crew.setXm_r (c : Crew) (v : Mask) : (c.setXm v).r = c.r := rfl
@[simp] theorem Crew.setXm_m (c : Crew) (v : Mask) : (c.setXm v).m = { c.m with xm := v &&& c.m.om } := rfl
@[simp] theorem Crew.setXm_g (c : Crew) (v : Mask) : (c.setXm v).g = c.g := rfl
@[simp] theorem Crew.setXm_f (c : Crew) (v : Mask) : (c.setXm v).f = c.f := rfl
@[simp] theorem Crew.setXm_h (c : Crew) (v : Mask) : (c.setXm v).h = c.h := rfl
@[simp] theorem Crew.setXm_w (c : Crew) (v : Mask) : (c.setXm v).w = c.w := rfl
@[simp] theorem Crew.setXm_x (c : Crew) (v : Mask) : (c.setXm v).x = c.x := rfl
@[simp] theorem Crew.setXm_size (c : Crew) (v : Mask) : (c.setXm v).size = c.size := rfl
@[simp] theorem Crew.setXm_pend (c : Crew) (v : Mask) : (c.setXm v).pend = c.pend := rfl
@[simp] theorem Crew.setXm_fail (c : Crew) (v : Mask) : (c.setXm v).fail = c.fail := rfl
@[simp] theorem Crew.setXm_slot (c : Crew) (v : Mask) : (c.setXm v).slot = c.slot := rfl
@[simp] theorem Crew.setXm_ext (c : Crew) (v : Mask) : (c.setXm v).ext = c.ext := rfl

/-! One vector lane of a crew -/

@[simp] theorem Crew.setV_uid (c : Crew) (f l : Nat) (v : Word) : (c.setV f l v).uid = c.uid := rfl
@[simp] theorem Crew.setV_idx (c : Crew) (f l : Nat) (v : Word) : (c.setV f l v).idx = c.idx := rfl
@[simp] theorem Crew.setV_stage (c : Crew) (f l : Nat) (v : Word) : (c.setV f l v).stage = c.stage := rfl
@[simp] theorem Crew.setV_r (c : Crew) (f l : Nat) (v : Word) : (c.setV f l v).r = { c.r with v := SMap.set 0 c.r.v (32 * c.vix f + l) v } := rfl
@[simp] theorem Crew.setV_m (c : Crew) (f l : Nat) (v : Word) : (c.setV f l v).m = c.m := rfl
@[simp] theorem Crew.setV_g (c : Crew) (f l : Nat) (v : Word) : (c.setV f l v).g = c.g := rfl
@[simp] theorem Crew.setV_f (c : Crew) (f l : Nat) (v : Word) : (c.setV f l v).f = c.f := rfl
@[simp] theorem Crew.setV_h (c : Crew) (f l : Nat) (v : Word) : (c.setV f l v).h = c.h := rfl
@[simp] theorem Crew.setV_w (c : Crew) (f l : Nat) (v : Word) : (c.setV f l v).w = c.w := rfl
@[simp] theorem Crew.setV_x (c : Crew) (f l : Nat) (v : Word) : (c.setV f l v).x = c.x := rfl
@[simp] theorem Crew.setV_size (c : Crew) (f l : Nat) (v : Word) : (c.setV f l v).size = c.size := rfl
@[simp] theorem Crew.setV_pend (c : Crew) (f l : Nat) (v : Word) : (c.setV f l v).pend = c.pend := rfl
@[simp] theorem Crew.setV_fail (c : Crew) (f l : Nat) (v : Word) : (c.setV f l v).fail = c.fail := rfl
@[simp] theorem Crew.setV_slot (c : Crew) (f l : Nat) (v : Word) : (c.setV f l v).slot = c.slot := rfl
@[simp] theorem Crew.setV_ext (c : Crew) (f l : Nat) (v : Word) : (c.setV f l v).ext = c.ext := rfl

/-! A scalar register of a crew -/

@[simp] theorem Crew.setS_uid (c : Crew) (n : Nat) (v : Word) : (c.setS n v).uid = c.uid :=
    by unfold Crew.setS; split <;> rfl
@[simp] theorem Crew.setS_idx (c : Crew) (n : Nat) (v : Word) : (c.setS n v).idx = c.idx :=
    by unfold Crew.setS; split <;> rfl
@[simp] theorem Crew.setS_stage (c : Crew) (n : Nat) (v : Word) : (c.setS n v).stage = c.stage :=
    by unfold Crew.setS; split <;> rfl
@[simp] theorem Crew.setS_m (c : Crew) (n : Nat) (v : Word) : (c.setS n v).m = c.m := by unfold Crew.setS; split <;> rfl
@[simp] theorem Crew.setS_g (c : Crew) (n : Nat) (v : Word) : (c.setS n v).g = c.g := by unfold Crew.setS; split <;> rfl
@[simp] theorem Crew.setS_f (c : Crew) (n : Nat) (v : Word) : (c.setS n v).f = c.f := by unfold Crew.setS; split <;> rfl
@[simp] theorem Crew.setS_h (c : Crew) (n : Nat) (v : Word) : (c.setS n v).h = c.h := by unfold Crew.setS; split <;> rfl
@[simp] theorem Crew.setS_w (c : Crew) (n : Nat) (v : Word) : (c.setS n v).w = c.w := by unfold Crew.setS; split <;> rfl
@[simp] theorem Crew.setS_x (c : Crew) (n : Nat) (v : Word) : (c.setS n v).x = c.x := by unfold Crew.setS; split <;> rfl
@[simp] theorem Crew.setS_size (c : Crew) (n : Nat) (v : Word) : (c.setS n v).size = c.size :=
    by unfold Crew.setS; split <;> rfl
@[simp] theorem Crew.setS_pend (c : Crew) (n : Nat) (v : Word) : (c.setS n v).pend = c.pend :=
    by unfold Crew.setS; split <;> rfl
@[simp] theorem Crew.setS_fail (c : Crew) (n : Nat) (v : Word) : (c.setS n v).fail = c.fail :=
    by unfold Crew.setS; split <;> rfl
@[simp] theorem Crew.setS_slot (c : Crew) (n : Nat) (v : Word) : (c.setS n v).slot = c.slot :=
    by unfold Crew.setS; split <;> rfl
@[simp] theorem Crew.setS_ext (c : Crew) (n : Nat) (v : Word) : (c.setS n v).ext = c.ext :=
    by unfold Crew.setS; split <;> rfl

/-! A predicate of a crew -/

@[simp] theorem Crew.setP_uid (c : Crew) (n : Nat) (v : Mask) : (c.setP n v).uid = c.uid :=
    by unfold Crew.setP; split <;> rfl
@[simp] theorem Crew.setP_idx (c : Crew) (n : Nat) (v : Mask) : (c.setP n v).idx = c.idx :=
    by unfold Crew.setP; split <;> rfl
@[simp] theorem Crew.setP_stage (c : Crew) (n : Nat) (v : Mask) : (c.setP n v).stage = c.stage :=
    by unfold Crew.setP; split <;> rfl
@[simp] theorem Crew.setP_m (c : Crew) (n : Nat) (v : Mask) : (c.setP n v).m = c.m := by unfold Crew.setP; split <;> rfl
@[simp] theorem Crew.setP_g (c : Crew) (n : Nat) (v : Mask) : (c.setP n v).g = c.g := by unfold Crew.setP; split <;> rfl
@[simp] theorem Crew.setP_f (c : Crew) (n : Nat) (v : Mask) : (c.setP n v).f = c.f := by unfold Crew.setP; split <;> rfl
@[simp] theorem Crew.setP_h (c : Crew) (n : Nat) (v : Mask) : (c.setP n v).h = c.h := by unfold Crew.setP; split <;> rfl
@[simp] theorem Crew.setP_w (c : Crew) (n : Nat) (v : Mask) : (c.setP n v).w = c.w := by unfold Crew.setP; split <;> rfl
@[simp] theorem Crew.setP_x (c : Crew) (n : Nat) (v : Mask) : (c.setP n v).x = c.x := by unfold Crew.setP; split <;> rfl
@[simp] theorem Crew.setP_size (c : Crew) (n : Nat) (v : Mask) : (c.setP n v).size = c.size :=
    by unfold Crew.setP; split <;> rfl
@[simp] theorem Crew.setP_pend (c : Crew) (n : Nat) (v : Mask) : (c.setP n v).pend = c.pend :=
    by unfold Crew.setP; split <;> rfl
@[simp] theorem Crew.setP_fail (c : Crew) (n : Nat) (v : Mask) : (c.setP n v).fail = c.fail :=
    by unfold Crew.setP; split <;> rfl
@[simp] theorem Crew.setP_slot (c : Crew) (n : Nat) (v : Mask) : (c.setP n v).slot = c.slot :=
    by unfold Crew.setP; split <;> rfl
@[simp] theorem Crew.setP_ext (c : Crew) (n : Nat) (v : Mask) : (c.setP n v).ext = c.ext :=
    by unfold Crew.setP; split <;> rfl

/-! The remote-access flags of a crew -/

@[simp] theorem Crew.setXsr_uid (c : Crew) (now b d : Nat) : (c.setXsr now b d).uid = c.uid := rfl
@[simp] theorem Crew.setXsr_idx (c : Crew) (now b d : Nat) : (c.setXsr now b d).idx = c.idx := rfl
@[simp] theorem Crew.setXsr_stage (c : Crew) (now b d : Nat) : (c.setXsr now b d).stage = c.stage := rfl
@[simp] theorem Crew.setXsr_r (c : Crew) (now b d : Nat) : (c.setXsr now b d).r = c.r := rfl
@[simp] theorem Crew.setXsr_m (c : Crew) (now b d : Nat) : (c.setXsr now b d).m = c.m := rfl
@[simp] theorem Crew.setXsr_f (c : Crew) (now b d : Nat) : (c.setXsr now b d).f = c.f := rfl
@[simp] theorem Crew.setXsr_h (c : Crew) (now b d : Nat) : (c.setXsr now b d).h = c.h := rfl
@[simp] theorem Crew.setXsr_w (c : Crew) (now b d : Nat) : (c.setXsr now b d).w = c.w := rfl
@[simp] theorem Crew.setXsr_x (c : Crew) (now b d : Nat) : (c.setXsr now b d).x = c.x := rfl
@[simp] theorem Crew.setXsr_size (c : Crew) (now b d : Nat) : (c.setXsr now b d).size = c.size := rfl
@[simp] theorem Crew.setXsr_pend (c : Crew) (now b d : Nat) : (c.setXsr now b d).pend = c.pend := rfl
@[simp] theorem Crew.setXsr_fail (c : Crew) (now b d : Nat) : (c.setXsr now b d).fail = c.fail := rfl
@[simp] theorem Crew.setXsr_slot (c : Crew) (now b d : Nat) : (c.setXsr now b d).slot = c.slot := rfl
@[simp] theorem Crew.setXsr_ext (c : Crew) (now b d : Nat) : (c.setXsr now b d).ext = c.ext := rfl

/-! The end of a wait -/

@[simp] theorem Crew.unwait_uid (c : Crew) : (c.unwait).uid = c.uid := rfl
@[simp] theorem Crew.unwait_idx (c : Crew) : (c.unwait).idx = c.idx := rfl
@[simp] theorem Crew.unwait_stage (c : Crew) : (c.unwait).stage = c.stage := rfl
@[simp] theorem Crew.unwait_r (c : Crew) : (c.unwait).r = c.r := rfl
@[simp] theorem Crew.unwait_m (c : Crew) : (c.unwait).m = c.m := rfl
@[simp] theorem Crew.unwait_g (c : Crew) : (c.unwait).g = c.g := rfl
@[simp] theorem Crew.unwait_f (c : Crew) : (c.unwait).f = c.f := rfl
@[simp] theorem Crew.unwait_h (c : Crew) : (c.unwait).h = c.h := rfl
@[simp] theorem Crew.unwait_w (c : Crew) : (c.unwait).w = {} := rfl
@[simp] theorem Crew.unwait_x (c : Crew) : (c.unwait).x = { c.x with xout := [], xwait := [], ibuf := [] } := rfl
@[simp] theorem Crew.unwait_size (c : Crew) : (c.unwait).size = c.size := rfl
@[simp] theorem Crew.unwait_pend (c : Crew) : (c.unwait).pend = c.pend := rfl
@[simp] theorem Crew.unwait_fail (c : Crew) : (c.unwait).fail = c.fail := rfl
@[simp] theorem Crew.unwait_slot (c : Crew) : (c.unwait).slot = c.slot := rfl
@[simp] theorem Crew.unwait_ext (c : Crew) : (c.unwait).ext = c.ext := rfl

/-! The end of a unit -/

@[simp] theorem Crew.issued_uid (c : Crew) : (c.issued).uid = c.uid := rfl
@[simp] theorem Crew.issued_idx (c : Crew) : (c.issued).idx = c.idx := rfl
@[simp] theorem Crew.issued_stage (c : Crew) : (c.issued).stage = c.stage := rfl
@[simp] theorem Crew.issued_r (c : Crew) : (c.issued).r = c.r := rfl
@[simp] theorem Crew.issued_m (c : Crew) : (c.issued).m = c.m := rfl
@[simp] theorem Crew.issued_g (c : Crew) : (c.issued).g = { c.g with skid := if c.g.stopping then c.g.skid + 1 else c.g.skid } := rfl
@[simp] theorem Crew.issued_f (c : Crew) : (c.issued).f = c.f := rfl
@[simp] theorem Crew.issued_h (c : Crew) : (c.issued).h = c.h := rfl
@[simp] theorem Crew.issued_w (c : Crew) : (c.issued).w = {} := rfl
@[simp] theorem Crew.issued_x (c : Crew) : (c.issued).x = { c.x with xout := [], xwait := [], ibuf := [] } := rfl
@[simp] theorem Crew.issued_size (c : Crew) : (c.issued).size = c.size := rfl
@[simp] theorem Crew.issued_pend (c : Crew) : (c.issued).pend = c.pend := rfl
@[simp] theorem Crew.issued_fail (c : Crew) : (c.issued).fail = c.fail := rfl
@[simp] theorem Crew.issued_slot (c : Crew) : (c.issued).slot = c.slot := rfl
@[simp] theorem Crew.issued_ext (c : Crew) : (c.issued).ext = c.ext := rfl

/-! A page that a crew need not wait for -/

@[simp] theorem Crew.pageDone_uid (c : Crew) (dev page : Nat) : (c.pageDone dev page).uid = c.uid := rfl
@[simp] theorem Crew.pageDone_idx (c : Crew) (dev page : Nat) : (c.pageDone dev page).idx = c.idx := rfl
@[simp] theorem Crew.pageDone_stage (c : Crew) (dev page : Nat) : (c.pageDone dev page).stage = c.stage := rfl
@[simp] theorem Crew.pageDone_r (c : Crew) (dev page : Nat) : (c.pageDone dev page).r = c.r := rfl
@[simp] theorem Crew.pageDone_m (c : Crew) (dev page : Nat) : (c.pageDone dev page).m = c.m := rfl
@[simp] theorem Crew.pageDone_g (c : Crew) (dev page : Nat) : (c.pageDone dev page).g = c.g := rfl
@[simp] theorem Crew.pageDone_f (c : Crew) (dev page : Nat) : (c.pageDone dev page).f = c.f := rfl
@[simp] theorem Crew.pageDone_x (c : Crew) (dev page : Nat) : (c.pageDone dev page).x = c.x := rfl
@[simp] theorem Crew.pageDone_size (c : Crew) (dev page : Nat) : (c.pageDone dev page).size = c.size := rfl
@[simp] theorem Crew.pageDone_pend (c : Crew) (dev page : Nat) : (c.pageDone dev page).pend = c.pend := rfl
@[simp] theorem Crew.pageDone_fail (c : Crew) (dev page : Nat) : (c.pageDone dev page).fail = c.fail := rfl
@[simp] theorem Crew.pageDone_slot (c : Crew) (dev page : Nat) : (c.pageDone dev page).slot = c.slot := rfl
@[simp] theorem Crew.pageDone_ext (c : Crew) (dev page : Nat) : (c.pageDone dev page).ext = c.ext := rfl

/-! A wait abandoned -/

@[simp] theorem Crew.abandon_uid (c : Crew) : (c.abandon).uid = c.uid := rfl
@[simp] theorem Crew.abandon_idx (c : Crew) : (c.abandon).idx = c.idx := rfl
@[simp] theorem Crew.abandon_stage (c : Crew) : (c.abandon).stage = c.stage := rfl
@[simp] theorem Crew.abandon_r (c : Crew) : (c.abandon).r = c.r := rfl
@[simp] theorem Crew.abandon_m (c : Crew) : (c.abandon).m = c.m := rfl
@[simp] theorem Crew.abandon_g (c : Crew) : (c.abandon).g = c.g := rfl
@[simp] theorem Crew.abandon_f (c : Crew) : (c.abandon).f = c.f := rfl
@[simp] theorem Crew.abandon_h (c : Crew) : (c.abandon).h = c.h := rfl
@[simp] theorem Crew.abandon_w (c : Crew) : (c.abandon).w = { c.w with kind := .none, pages := [] } := rfl
@[simp] theorem Crew.abandon_x (c : Crew) : (c.abandon).x = c.x := rfl
@[simp] theorem Crew.abandon_size (c : Crew) : (c.abandon).size = c.size := rfl
@[simp] theorem Crew.abandon_pend (c : Crew) : (c.abandon).pend = c.pend := rfl
@[simp] theorem Crew.abandon_fail (c : Crew) : (c.abandon).fail = c.fail := rfl
@[simp] theorem Crew.abandon_slot (c : Crew) : (c.abandon).slot = c.slot := rfl
@[simp] theorem Crew.abandon_ext (c : Crew) : (c.abandon).ext = c.ext := rfl

/-! The registers above an allocation dropped -/

@[simp] theorem Crew.dropAbove_uid (c : Crew) (n : Nat) : (c.dropAbove n).uid = c.uid := rfl
@[simp] theorem Crew.dropAbove_idx (c : Crew) (n : Nat) : (c.dropAbove n).idx = c.idx := rfl
@[simp] theorem Crew.dropAbove_stage (c : Crew) (n : Nat) : (c.dropAbove n).stage = c.stage := rfl
@[simp] theorem Crew.dropAbove_r (c : Crew) (n : Nat) : (c.dropAbove n).r = { c.r with v := c.r.v.keep (fun k => k < 32 * n) } := rfl
@[simp] theorem Crew.dropAbove_m (c : Crew) (n : Nat) : (c.dropAbove n).m = c.m := rfl
@[simp] theorem Crew.dropAbove_g (c : Crew) (n : Nat) : (c.dropAbove n).g = c.g := rfl
@[simp] theorem Crew.dropAbove_f (c : Crew) (n : Nat) : (c.dropAbove n).f = c.f := rfl
@[simp] theorem Crew.dropAbove_h (c : Crew) (n : Nat) : (c.dropAbove n).h = c.h := rfl
@[simp] theorem Crew.dropAbove_w (c : Crew) (n : Nat) : (c.dropAbove n).w = c.w := rfl
@[simp] theorem Crew.dropAbove_x (c : Crew) (n : Nat) : (c.dropAbove n).x = c.x := rfl
@[simp] theorem Crew.dropAbove_size (c : Crew) (n : Nat) : (c.dropAbove n).size = n := rfl
@[simp] theorem Crew.dropAbove_pend (c : Crew) (n : Nat) : (c.dropAbove n).pend = c.pend := rfl
@[simp] theorem Crew.dropAbove_fail (c : Crew) (n : Nat) : (c.dropAbove n).fail = c.fail := rfl
@[simp] theorem Crew.dropAbove_slot (c : Crew) (n : Nat) : (c.dropAbove n).slot = c.slot := rfl
@[simp] theorem Crew.dropAbove_ext (c : Crew) (n : Nat) : (c.dropAbove n).ext = c.ext := rfl

end Sys2Proof.Machine
end

