-- ==== Sys2Proof/Laws/Traps.lean ====
section
/-! SUPPORT. Taking a trap, releases and the scratchpad: what each shared operation answers. -/

namespace Sys2Proof.Machine

/-- Storing a crew back: that crew is found, every other one as before. -/
theorem State.crew?_putCrew {s : State} {c c0 : Crew} (h : s.crew? c.uid c.idx = some c0) (u i : Nat) :
    (s.putCrew c).crew? u i = if u = c.uid ∧ i = c.idx then some c else s.crew? u i := by
  unfold State.putCrew
  rw [State.crew?_modCrew _ _ _ _ (fun _ _ _ => ⟨rfl, rfl⟩)]
  split
  · rename_i e; obtain ⟨rfl, rfl⟩ := e; rw [h]; rfl
  · rfl

@[simp] theorem State.crew?_modCohort (s : State) (u : Nat) (k : Cohort → Cohort) (v i : Nat) :
    (s.modCohort u k).crew? v i = s.crew? v i := rfl

@[simp] theorem State.crew?_modInst (s : State) (j : Nat) (k : Inst → Inst) (v i : Nat) :
    (s.modInst j k).crew? v i = s.crew? v i := rfl

/-- One cohort changed: it is found changed, every other one as before. -/
theorem State.cohort?_modCohort (s : State) (u : Nat) (k : Cohort → Cohort) (hk : ∀ h : Cohort, (k h).uid = h.uid) (v : Nat) :
    (s.modCohort u k).cohort? v = if v = u then (s.cohort? v).map k else s.cohort? v := by
  unfold State.modCohort State.cohort?
  simp only
  rw [find?_map_same _ _ (fun h => by split <;> simp [hk])]
  cases hc : List.find? (fun h => h.uid == v) s.cohorts with
  | none => simp
  | some h =>
    have := List.find?_some hc
    simp only [beq_iff_eq] at this
    simp only [Option.map_some, this, beq_iff_eq]
    split <;> simp_all

/-- A trap whose handler may run enters it (R216): outside a halt, outside a handler, FRZ clear, no run limit, the
crew stands at the handler with its state saved, and nothing of another crew, of an instance, of memory or of an
engine changes. -/
theorem State.takeTrap_enters {s : State} {c c0 : Crew} {h : Cohort} {t : Trap} (hc : s.crew? c.uid c.idx = some c0)
    (hh : (s.nodeOf h).handler ≠ 0) (hg : c.g.hnd = false) (hl : h.halt = none) (hf : c.g.ccr.getLsbD 13 = false)
    (ht : t.cause ≠ 9 ∧ t.cause ≠ 10 ∧ t.cause ≠ 16) :
    (s.takeTrap c h t).crew? c.uid c.idx = some ((c.setFault t).enter t (s.nodeOf h).handler)
      ∧ (s.takeTrap c h t).insts = s.insts ∧ (s.takeTrap c h t).mem = s.mem ∧ (s.takeTrap c h t).eng = s.eng
      ∧ ∀ v j, (v ≠ c.uid ∨ j ≠ c.idx) → (s.takeTrap c h t).crew? v j = s.crew? v j := by
  have hr : handlerRuns (s.nodeOf h) h (c.setFault t) t.cause = true := by
    have h1 : ((s.nodeOf h).handler != 0) = true := bne_iff_ne.2 hh
    simp only [handlerRuns, h1]
    simp [noHandler, Crew.setFault, hg, ht.1, ht.2.1, ht.2.2]
  have hf2 : ((c.setFault t).enter t (s.nodeOf h).handler).g.ccr.getLsbD 13 = false := hf
  have e : s.takeTrap c h t
      = (s.modCohort h.uid (fun x => if x.ev = .saving then { x with ev := .placed } else x)).putCrew
          ((c.setFault t).enter t (s.nodeOf h).handler) := by
    have hf3 : (c.setFault t).g.ccr.getLsbD 13 = false := hf
    simp only [State.takeTrap, hl, hr, if_true, ht.2.2, if_false, hf3, Bool.false_eq_true]
  have e2 := fun u i => State.crew?_putCrew (c := (c.setFault t).enter t (s.nodeOf h).handler) (c0 := c0)
    (s := s.modCohort h.uid (fun x => if x.ev = .saving then { x with ev := .placed } else x)) hc u i
  rw [e]
  refine ⟨(e2 _ _).trans (if_pos ⟨rfl, rfl⟩), rfl, rfl, rfl, fun v j hv => (e2 v j).trans (if_neg ?_)⟩
  rintro ⟨rfl, rfl⟩
  exact hv.elim (· rfl) (· rfl)

/-- A trap behind a sibling's halt waits and the crew goes on to its resume PC (R213). -/
theorem State.takeTrap_pends {s : State} {c : Crew} {h : Cohort} {t : Trap} {k : Halt} (hl : h.halt = some k)
    (hk : k.crew ≠ c.idx) : s.takeTrap c h t
      = (s.modCohort h.uid (fun x => if x.ev = .saving then { x with ev := .placed } else x)).putCrew
        { c.setFault t with pend := c.pend ++ [t], r := { c.r with pc := t.resume } } := by
  have : k.crew ≠ (c.setFault t).idx := hk
  simp only [State.takeTrap, hl, ne_eq, this, not_false_eq_true, if_true]
  rfl

/-- A release with nothing to wait for is done (R110, R112). -/
theorem State.release_done {s : State} {c : Crew} {h : Cohort} {scope : Nat}
    (h1 : ∀ e ∈ s.mem.log, e.uid ≠ c.uid ∨ e.idx ≠ c.idx) (h2 : ∀ l ∈ s.mem.loads, l.uid ≠ c.uid ∨ l.idx ≠ c.idx)
    (h3 : ∀ e ∈ s.mem.stores, e.uid ≠ c.uid ∨ e.idx ≠ c.idx) : s.release c h scope = .done := by
  have e1 : (s.mem.log.any (fun e => e.uid == c.uid && e.idx == c.idx && e.covered scope)) = false := by
    rw [List.any_eq_false]
    intro e he
    rcases h1 e he with q | q <;> simp [q]
  have e2 : (s.mem.loads.any (fun l => l.uid == c.uid && l.idx == c.idx)) = false := by
    rw [List.any_eq_false]
    intro e he
    rcases h2 e he with q | q <;> simp [q]
  have e3 : (s.mem.stores.any (fun e => e.uid == c.uid && e.idx == c.idx && !e.nt && e.covered scope
      && !e.seen scope h.sh.span)) = false := by
    rw [List.any_eq_false]
    intro e he
    rcases h3 e he with q | q <;> simp [q]
  unfold State.release
  rw [e1, e2, e3]
  simp

/-- An instruction whose release is done goes on (R110). -/
theorem State.releasing_done {s f : State} {c : Crew} {h : Cohort} {scope : Nat} (hf : c.fail = none)
    (hr : s.release c h scope = .done) : s.releasing c h scope f = f := by
  simp only [State.releasing, hf, hr]

/-- A release that waits for accesses on their way keeps the crew at its unit. -/
theorem State.releasing_stall {s f : State} {c : Crew} {h : Cohort} {scope : Nat} (hf : c.fail = none)
    (hr : s.release c h scope = .stall) :
    s.releasing c h scope f = s.putCrew { c with w := { c.w with kind := .none } } := by
  simp only [State.releasing, hf, hr]

/-- A release that finds a failed side-log entry takes its trap and will be executed again (R137). -/
theorem State.releasing_fails {s f : State} {c : Crew} {h : Cohort} {scope k : Nat} {t : Trap} (hf : c.fail = some (k, t)) :
    s.releasing c h scope f = s.takeTrap { c.issued with fail := none } h { t with resume := c.r.pc } := by
  simp only [State.releasing, hf, State.orderTrap]

/-! ## The scratchpad -/

/-- A scratchpad word after a write of another or the same one; the full/empty bits keep their values. -/
theorem Cohort.sp64_setSp (h : Cohort) (o : Nat) (v : Word) (p : Nat) :
    (h.setSp o v).sp64 p = (if p / 8 = o / 8 then v else h.sp64 p) ∧ (h.setSp o v).full p = h.full p :=
  ⟨SMap.get_set _ _ _ _ _, rfl⟩

theorem Cohort.full_setFull (h : Cohort) (o : Nat) (b : Bool) (p : Nat) :
    (h.setFull o b).full p = (if p / 8 = o / 8 then b else h.full p) ∧ (h.setFull o b).sp64 p = h.sp64 p :=
  ⟨SMap.get_set _ _ _ _ _, rfl⟩

/-- A completion write fills its word (R99). -/
theorem State.cohort?_completeWord (s : State) (u o : Nat) (v : Word) (x : Nat) :
    (s.completeWord u o v).cohort? x
      = if x = u then (s.cohort? x).map (fun h => (h.setSp o v).setFull o true) else s.cohort? x :=
  State.cohort?_modCohort s u (fun h => (h.setSp o v).setFull o true) (fun _ => rfl) x

end Sys2Proof.Machine
end

