-- ==== Sys2Proof/Machine/Rhas.lean ====
section
/-! DEFINITION. rhas, the assembly language (R262 to R264): the tokens of a line, expressions, operands and
suffixes, and the words of an instruction. -/

namespace Sys2Proof.Rhas

/-- Why rhas writes no image (R262 to R268). -/
inductive Err where
  /-- A line that is no label, directive or instruction. -/
  | line
  /-- An expression that is none, or has no value. -/
  | expression
  /-- A symbol that nothing defines. -/
  | symbol
  /-- A symbol defined twice. -/
  | twice
  /-- A value that does not fit its field, a branch out of reach, or a VEXPR list that breaks R261. -/
  | field
  /-- A mnemonic, suffix or operand that no form gives. -/
  | operand
  /-- An XP field that R256 forbids. -/
  | refused
  /-- A directive that is none, or stands where it may not. -/
  | directive
  /-- A node whose lines do not fill its descriptor, or break R47. -/
  | node
deriving DecidableEq, Repr

/-! ## Tokens (R262) -/

/-- A token: an identifier, a number, a decimal n / 10^k, a character of an operator or bracket, a shift. -/
inductive Tkn where
  | id (s : String)
  | num (n : Nat)
  | dec (n k : Nat)
  | ch (c : Char)
  | shl
  | shr
deriving DecidableEq, Repr

/-- White space. -/
def blank (c : Char) : Bool := c == ' ' || c == '\t' || c == '\r'

/-- A character of an identifier or number. -/
def wordChar (c : Char) : Bool := c.isAlphanum || c == '_' || c == '.'

/-- A digit of base `b`. -/
def digit (b : Nat) (c : Char) : Option Nat :=
  let n := if c.isDigit then c.toNat - 48
    else if 97 ≤ c.toNat ∧ c.toNat ≤ 102 then c.toNat - 87
    else if 65 ≤ c.toNat ∧ c.toNat ≤ 70 then c.toNat - 55 else b
  if n < b then some n else none

/-- The value and number of digits, with underscores between them, after `k` digits of value `n`; `ok` says that the
last character was a digit. -/
def digits (b : Nat) : List Char → Bool → Nat → Nat → Option (Nat × Nat)
  | [], ok, n, k => if ok then some (n, k) else none
  | c :: r, _, n, k =>
    if c = '_' then (if k = 0 then none else digits b r false n k)
    else match digit b c with
      | some d => digits b r true (n * b + d) (k + 1)
      | none => none

/-- A number, or a decimal with its point. -/
def number (l : List Char) : Option Tkn :=
  match l with
  | '0' :: 'x' :: r => (digits 16 r false 0 0).map (fun v => .num v.1)
  | '0' :: 'b' :: r => (digits 2 r false 0 0).map (fun v => .num v.1)
  | _ =>
    let a := l.takeWhile (· != '.')
    match l.drop a.length with
    | [] => (digits 10 a false 0 0).map (fun v => .num v.1)
    | _ :: f => match digits 10 a false 0 0, digits 10 f false 0 0 with
      | some v, some w => some (.dec (v.1 * 10 ^ w.2 + w.1) w.2)
      | _, _ => none

/-- The token of the characters read, in reverse; none of none. -/
def flush (p : List Char) : Option (List Tkn) :=
  match p.reverse with
  | [] => some []
  | c :: r => if c.isDigit then (number (c :: r)).map (fun t => [t]) else some [.id (String.ofList (c :: r))]

/-- The tokens of the characters of a line. -/
def lex : List Char → List Char → Option (List Tkn)
  | [], p => flush p
  | '<' :: '<' :: r, p => do return (← flush p) ++ .shl :: (← lex r [])
  | '>' :: '>' :: r, p => do return (← flush p) ++ .shr :: (← lex r [])
  | c :: r, p =>
    if wordChar c then lex r (c :: p)
    else if blank c then do return (← flush p) ++ (← lex r [])
    else if [',', '[', ']', '(', ')', '+', '-', '*', '/', '&', '|', ':', '!'].contains c then
      do return (← flush p) ++ .ch c :: (← lex r [])
    else none

/-! ## Expressions (R262) -/

/-- An exact value num / den. -/
structure Frac where
  num : Int
  den : Nat
deriving DecidableEq, Repr

/-- An integer. -/
def Frac.ofInt (i : Int) : Frac := ⟨i, 1⟩

/-- The integer that a value is. -/
def Frac.int? (f : Frac) : Option Int := if f.num % f.den = 0 then some (f.num / f.den) else none

/-- The operators, in order of precedence, the highest first. -/
inductive Op where
  | mul | div | add | sub | shl | shr | and | or
deriving DecidableEq, Repr

/-- The operator of a token. -/
def opOf : Tkn → Option Op
  | .ch c => if c = '*' then some .mul else if c = '/' then some .div else if c = '+' then some .add
      else if c = '-' then some .sub else if c = '&' then some .and else if c = '|' then some .or else none
  | .shl => some .shl
  | .shr => some .shr
  | _ => none

/-- Bitwise and of integers in two's complement. -/
def land : Int → Int → Int
  | .ofNat m, .ofNat n => .ofNat (m &&& n)
  | .ofNat m, .negSucc n => .ofNat (m - (m &&& n))
  | .negSucc m, .ofNat n => .ofNat (n - (n &&& m))
  | .negSucc m, .negSucc n => .negSucc (m ||| n)

/-- Bitwise or. -/
def lor : Int → Int → Int
  | .ofNat m, .ofNat n => .ofNat (m ||| n)
  | .ofNat m, .negSucc n => .negSucc (n - (n &&& m))
  | .negSucc m, .ofNat n => .negSucc (m - (m &&& n))
  | .negSucc m, .negSucc n => .negSucc (m &&& n)

/-- Apply an operator; none has no value: a division by 0, or bits of what is no integer. -/
def Op.apply (o : Op) (x y : Frac) : Option Frac :=
  let bits (f : Int → Int → Option Int) : Option Frac := do
    return .ofInt (← f (← x.int?) (← y.int?))
  match o with
  | .mul => some ⟨x.num * y.num, x.den * y.den⟩
  | .div => if y.num = 0 then none
      else if 0 < y.num then some ⟨x.num * y.den, x.den * y.num.toNat⟩
      else some ⟨-(x.num * y.den), x.den * (-y.num).toNat⟩
  | .add => some ⟨x.num * y.den + y.num * x.den, x.den * y.den⟩
  | .sub => some ⟨x.num * y.den - y.num * x.den, x.den * y.den⟩
  | .shl => bits (fun a n => if n < 0 then none else if a = 0 then some 0 else some (a * 2 ^ n.toNat))
  | .shr => bits (fun a n => if n < 0 then none else if a.natAbs < n.toNat then some (if a < 0 then -1 else 0)
      else some (a / 2 ^ n.toNat))
  | .and => bits (fun a b => some (land a b))
  | .or => bits (fun a b => some (lor a b))

/-- What is known while the image is laid out: the values of symbols, `last` when they are final, and which name nodes. -/
structure Env where
  syms : List (String × Frac)
  last : Bool
  nodes : List String := []
deriving DecidableEq, Repr

/-- A value; none while a symbol in it is not known yet. -/
abbrev Val := Option Frac

/-- The value of a symbol. -/
def Env.get (e : Env) (s : String) : Except Err Val :=
  match e.syms.find? (fun p => p.1 == s) with
  | some p => .ok (some p.2)
  | none => if e.last then .error .symbol else .ok none

/-- Apply an operator to values. -/
def applyV (o : Op) : Val → Val → Except Err Val
  | some x, some y => match o.apply x y with
    | some v => .ok (some v)
    | none => .error .expression
  | _, _ => .ok none

/-- A number, a symbol, a negation, or an expression in parentheses, which `sub` reads. -/
def primary (e : Env) (sub : List Tkn → Except Err (Val × List Tkn)) : List Tkn → Except Err (Val × List Tkn)
  | .num n :: r => .ok (some (.ofInt n), r)
  | .id s :: r => do return (← e.get s, r)
  | .ch c :: r =>
    if c = '-' then do
      let (v, r) ← primary e sub r
      return (v.map (fun f => ⟨-f.num, f.den⟩), r)
    else if c = '(' then do
      let (v, r) ← sub r
      match r with
      | .ch d :: r => if d = ')' then return (v, r) else .error .expression
      | _ => .error .expression
    else .error .expression
  | _ => .error .expression

/-- The operators that follow, each with its right operand. -/
def operands (e : Env) (sub : List Tkn → Except Err (Val × List Tkn)) :
    Nat → List Tkn → Except Err (List (Op × Val) × List Tkn)
  | 0, ts => .ok ([], ts)
  | k + 1, ts => match ts with
    | [] => .ok ([], [])
    | t :: r => match opOf t with
      | none => .ok ([], t :: r)
      | some o => do
        let (v, r) ← primary e sub r
        let (l, r) ← operands e sub k r
        return ((o, v) :: l, r)

/-- Apply every use of one operator, from the left. -/
def reduceOp (o : Op) : Val → List (Op × Val) → Except Err (Val × List (Op × Val))
  | x, [] => .ok (x, [])
  | x, (p, y) :: r =>
    if p = o then do reduceOp o (← applyV o x y) r
    else do
      let (y, r) ← reduceOp o y r
      return (x, (p, y) :: r)

/-- Apply the operators in order of precedence. -/
def reduce (x : Val) (l : List (Op × Val)) : Except Err Val := do
  let (x, _) ← [Op.mul, .div, .add, .sub, .shl, .shr, .and, .or].foldlM (fun p o => reduceOp o p.1 p.2) (x, l)
  return x

/-- An expression at the head of some tokens; `k` bounds the depth of parentheses. -/
def expression (e : Env) : Nat → List Tkn → Except Err (Val × List Tkn)
  | 0, _ => .error .expression
  | k + 1, ts => do
    let (x, r) ← primary e (expression e k) ts
    let (l, r) ← operands e (expression e k) r.length r
    return (← reduce x l, r)

/-- The value of tokens that are one expression. -/
def value (e : Env) (ts : List Tkn) : Except Err Val := do
  let (v, r) ← expression e (ts.length + 1) ts
  if r.isEmpty then return v else .error .expression

/-- Its integer; 0 stands for one that is not known yet. -/
def intOf (v : Val) : Except Err Int :=
  match v with
  | none => .ok 0
  | some f => match f.int? with
    | some i => .ok i
    | none => .error .field

/-- The integer of an expression; 0 while it has none because symbols are not final. -/
def int (e : Env) (ts : List Tkn) : Except Err Int :=
  match (do intOf (← value e ts) : Except Err Int) with
  | .ok i => .ok i
  | .error x => if e.last then .error x else .ok 0

/-! ## Operands (R263) -/

/-- An operand. -/
inductive Opd where
  | v (n : Nat)
  | s (n : Nat)
  | p (n : Nat)
  | t (n : Nat)
  | imm (i : Int)
  /-- A per-lane address: 0 global, 1 scratchpad, 2 lane-private, 3 sharded. -/
  | lane (space b a : Nat)
  | scalar (a : Nat) (off : Int)
  | tile (n : Nat) (col : Bool) (b : Nat) (off : Int)
  | list (l : List Tok)
deriving DecidableEq, Repr

/-- A register name. -/
def register (s : String) : Option Opd :=
  match s.toList with
  | c :: d :: r =>
    match (if (d :: r).all Char.isDigit then digits 10 (d :: r) false 0 0 else none) with
    | none => none
    | some (n, _) =>
      if c = 'v' ∧ n < 256 then some (.v n) else if c = 's' ∧ n < 192 then some (.s n)
      else if c = 'p' ∧ n < 16 then some (.p n) else if c = 't' ∧ n < 64 then some (.t n) else none
  | _ => none

/-- A scalar register name. -/
def scalarReg (s : String) : Except Err Nat :=
  match register s with
  | some (.s n) => .ok n
  | _ => .error .operand

/-- A vector register name. -/
def vectorReg (s : String) : Except Err Nat :=
  match register s with
  | some (.v n) => .ok n
  | _ => .error .operand

/-- The number of a system register (R37). -/
def systemReg (s : String) : Option Int :=
  (([("CCR", 0x000), ("CST", 0x001), ("XSR", 0x002), ("WND", 0x003), ("NODE", 0x004), ("AIDX", 0x005), ("COH", 0x006),
    ("CREW", 0x007), ("STAGE", 0x008), ("NCREW", 0x009), ("NREC", 0x00A), ("DEV", 0x00B), ("CLK", 0x00C),
    ("NFL.IV", 0x010), ("NFL.DZ", 0x011), ("NFL.OF", 0x012), ("NFL.UF", 0x013), ("NFL.NX", 0x014), ("NFL.IO", 0x015),
    ("NFL.SAT", 0x016), ("RPOOL", 0x020), ("RALLOC", 0x021), ("FPC", 0x030), ("FCAUSE", 0x031), ("FLANES", 0x032),
    ("FADDR", 0x033), ("FLCAUSE", 0x034)] : List (String × Int)).find? (fun e => e.1 == s)).map (·.2)

/-- The token of a VEXPR list (R260, R263). -/
def exprTok : Tkn → Option Tok
  | .id s => (([("i0", .i0), ("i1", .i1), ("i2", .i2), ("i3", .i3), ("add", .add), ("sub", .sub), ("mul", .mul),
      ("fma", .fma), ("min", .min), ("max", .max), ("neg", .neg), ("abs", .abs), ("exp2", .exp2), ("rcp", .rcp),
      ("dup", .dup)] : List (String × Tok)).find? (fun e => e.1 == s)).map (·.2)
  | _ => none

/-- The parts of a name between its dots. -/
def dots : List Char → List Char → List String
  | [], p => [String.ofList p.reverse]
  | c :: r, p => if c = '.' then String.ofList p.reverse :: dots r [] else dots r (c :: p)

/-- The slice name of a tile: its number and whether it is a column. -/
def tileName (s : String) : Option (Nat × Bool) :=
  match dots s.toList [] with
  | [t, k] => match register t with
    | some (.t n) => if k = "row" then some (n, false) else if k = "col" then some (n, true) else none
    | _ => none
  | _ => none

/-- Tokens that end in a character, without it. -/
def upTo (c : Char) (ts : List Tkn) : Except Err (List Tkn) :=
  if ts.getLast? = some (.ch c) then .ok ts.dropLast else .error .operand

/-- A per-lane operand: the tokens after its bracket, with `sep` between the registers. -/
def perLane (space : Nat) (sep : Char) (ts : List Tkn) : Except Err Opd :=
  match ts with
  | [.id b, .ch c, .id a, .ch d] =>
    if c = sep ∧ d = ']' then do return .lane space (← scalarReg b) (← vectorReg a) else .error .operand
  | _ => .error .operand

/-- An address in brackets, without the first: of each lane, or scalar. -/
def address (e : Env) (ts : List Tkn) : Except Err Opd :=
  match ts with
  | .id b :: .ch c :: r =>
    if c ≠ '+' then .error .operand
    else match r with
      | [.id a, .ch _] => match register a with
        | some (.v _) => perLane 0 '+' ts
        | _ => do return .scalar (← scalarReg b) (← int e (← upTo ']' r))
      | _ => do return .scalar (← scalarReg b) (← int e (← upTo ']' r))
  | _ => .error .operand

/-- One operand; `sys` where a system register may be named. -/
def operand (e : Env) (sys : Bool) (ts : List Tkn) : Except Err Opd :=
  match ts with
  | [.id s] => match register s with
    | some r => .ok r
    | none => match (if sys then systemReg s else none) with
      | some n => .ok (.imm n)
      | none => do return .imm (← int e ts)
  | .ch c :: r => if c = '[' then address e r else do return .imm (← int e ts)
  | .id s :: .ch c :: r =>
    if c = '[' ∧ s = "sp" then perLane 1 '+' r
    else if c = '[' ∧ s = "lp" then perLane 2 '+' r
    else if c = '[' ∧ s = "sh" then perLane 3 ':' r
    else if c = '(' ∧ s = "expr" then do
      match (← upTo ')' r).mapM exprTok with
      | some l => return .list l
      | none => .error .operand
    else if c = '[' then
      match tileName s, r with
      | some (n, col), .id b :: .ch d :: r =>
        if d = '+' then do return .tile n col (← scalarReg b) (← int e (← upTo ']' r)) else .error .operand
      | _, _ => .error .operand
    else do return .imm (← int e ts)
  | _ => do return .imm (← int e ts)

/-- Split tokens at the commas outside brackets. -/
def commas : List Tkn → Nat → List Tkn → List (List Tkn)
  | [], _, p => [p.reverse]
  | t :: r, k, p =>
    if t = .ch ',' ∧ k = 0 then p.reverse :: commas r 0 []
    else if t = .ch '[' ∨ t = .ch '(' then commas r (k + 1) (t :: p)
    else if t = .ch ']' ∨ t = .ch ')' then commas r (k - 1) (t :: p)
    else commas r k (t :: p)

/-- The groups of tokens of a list; none of an empty one. -/
def groups (ts : List Tkn) : List (List Tkn) := if ts.isEmpty then [] else commas ts 0 []

/-- Predication (R263). -/
def predication (ts : List Tkn) : Except Err (Option Pred) :=
  let p (s : String) (neg : Bool) : Except Err (Option Pred) := match register s with
    | some (.p n) => .ok (some ⟨n, neg⟩)
    | _ => .error .operand
  match ts with
  | [] => .ok none
  | [_, .id s] => p s false
  | [_, .ch c, .id s] => if c = '!' then p s true else .error .operand
  | _ => .error .operand

/-! ## Suffixes (R264) -/

/-- Look a name up. -/
def look {α : Type} (t : List (String × α)) (s : String) : Option α := (t.find? (fun e => e.1 == s)).map (·.2)

/-- A type (R257). -/
def tyOf (s : String) : Option Ty :=
  look [("s8", .s8), ("s16", .s16), ("s32", .s32), ("s64", .s64), ("n8", .n8), ("n16", .n16), ("n32", .n32),
    ("n64", .n64), ("s4", .s4), ("n4", .n4), ("f32", .f32), ("f16", .f16), ("bf16", .bf16), ("e4m3", .e4m3),
    ("e5m2", .e5m2), ("e2m1s", .e2m1s)] s

/-- A size (R258). -/
def sizeOf_ (s : String) : Option Size :=
  look [("8", .b8), ("16", .b16), ("32", .b32), ("64", .b64), ("pair", .pair), ("quad", .quad)] s

/-- The suffixes after the minor function and the types. -/
structure Sfx where
  rnd : Nat := 0
  scope : Nat := 0
  sat : Bool := false
  nt : Bool := false
deriving DecidableEq, Repr

/-- Rounding, scope, `.sat` and `.nt`, in this order. -/
def sfx (l : List String) : Option Sfx :=
  let one (t : List (String × Nat)) (l : List String) : Nat × List String := match l with
    | s :: r => match look t s with
      | some n => (n, r)
      | none => (0, l)
    | [] => (0, [])
  let (rnd, l) := one [("rne", 1), ("rz", 2), ("rdn", 3), ("rup", 4), ("rna", 5), ("sr", 6)] l
  let (sc, l) := one [("crew", 1), ("coh", 2), ("dev", 3), ("dom", 4)] l
  let (sat, l) := one [("sat", 1)] l
  let (nt, l) := one [("nt", 1)] l
  if l.isEmpty then some ⟨rnd, sc, sat == 1, nt == 1⟩ else none

/-- Only the suffixes that an instruction has are given. -/
def Sfx.only (x : Sfx) (rnd scope sat nt : Bool) : Bool :=
  (rnd || x.rnd == 0) && (scope || x.scope == 0) && (sat || !x.sat) && (nt || !x.nt)

/-- A type and the suffixes after it. -/
def typed (l : List String) : Option (Ty × Sfx) :=
  match l with
  | s :: r => do return (← tyOf s, ← sfx r)
  | [] => none

/-- A size and the suffixes after it. -/
def sized (l : List String) : Option (Size × Sfx) :=
  match l with
  | s :: r => do return (← sizeOf_ s, ← sfx r)
  | [] => none

/-! ## Instructions without types (R271, R272, R277) -/

/-- A value that a field of numbers from `lo` below `hi` takes. -/
def natIn (lo hi : Nat) (i : Int) : Option Nat := if (lo : Int) ≤ i ∧ i < hi then some i.toNat else none

/-- Three scalar registers. -/
def tabS3 : List (String × (Nat → Nat → Nat → Instr)) :=
  [("SADD", .sadd), ("SSUB", .ssub), ("SMUL", .smul), ("SMULH", .smulh), ("SMULH.n", .smulhN), ("SAND", .sand),
   ("SOR", .sor), ("SXOR", .sxor), ("SANDN", .sandn), ("SSHL", .sshl), ("SSHR", .sshr), ("SSRA", .ssra),
   ("SSET.eq", .sset .eq), ("SSET.ne", .sset .ne), ("SSET.lt", .sset .lt), ("SSET.ge", .sset .ge),
   ("SSET.lt.n", .sset .ltn), ("SSET.ge.n", .sset .gen), ("SMIN", .smin), ("SMAX", .smax), ("SMIN.n", .sminN),
   ("SMAX.n", .smaxN)]
  ++ [("SBFX", .sbfx), ("SBFX.n", .sbfxN), ("SBFI", .sbfi), ("SHINV", .shinv), ("DEPSET.ARM", .depsetArm),
   ("WAITA.eq", .waita .eq), ("WAITA.ne", .waita .ne), ("WAITA.ge.n", .waita .gen), ("WAITA.lt.n", .waita .ltn),
   ("WAITA.eq.sp", .waitaSp .eq), ("WAITA.ne.sp", .waitaSp .ne), ("WAITA.ge.n.sp", .waitaSp .gen),
   ("WAITA.lt.n.sp", .waitaSp .ltn)]

/-- Two scalar registers. -/
def tabS2 : List (String × (Nat → Nat → Instr)) :=
  [("SMOV", .smov), ("SCLZ", .sclz), ("SPOPC", .spopc), ("DEPSET.DEC", .depsetDec)]

/-- Two scalar registers and an immediate. -/
def tabSi : List (String × (Nat → Nat → Int → Instr)) :=
  [("SADDI", .saddi), ("SANDI", .sandi), ("SORI", .sori), ("SXORI", .sxori)]

/-- Two scalar registers and a count. -/
def tabSh : List (String × (Nat → Nat → Nat → Instr)) :=
  [("SSHL", .sshlImm), ("SSHR", .sshrImm), ("SSRA", .ssraImm)]

/-- One scalar register. -/
def tabS1 : List (String × (Nat → Instr)) :=
  [("JMPI", .jmpi), ("RNGSET.seed", .rngsetSeed), ("RNGSET.ctr", .rngsetCtr), ("RNGGET.ctr", .rnggetCtr),
   ("RNGGET.seed", .rnggetSeed), ("TRAP", .trap), ("WDQ", .wdq), ("MMQ", .mmq), ("CPQ", .cpq)]

/-- No operand. -/
def tab0 : List (String × Instr) :=
  [("RET", .ret), ("XMPOP", .xmpop), ("XMELSE", .xmelse), ("TRET", .tret), ("BRK", .brk), ("NOP", .nop),
   ("YIELD", .yield), ("EXIT", .exit), ("DRAIN", .drain), ("WAITPRED", .waitpred), ("HINTSUCC", .hintsucc)]

/-- An immediate alone. -/
def tabI : List (String × (Int → Instr)) := [("WBASE", .wbase), ("REGREL", .regrel), ("REGCLM", .regclm)]

/-- Three predicates. -/
def tabP3 : List (String × (Nat → Nat → Nat → Instr)) := [("PAND", .pand), ("POR", .por), ("PXOR", .pxor)]

/-- A scalar register and a predicate. -/
def tabSp : List (String × (Nat → Nat → Instr)) := [("PCNT", .pcnt), ("PCNT.any", .pcntAny), ("PCNT.all", .pcntAll)]

/-- Branches on a scalar register and on a predicate (R259). -/
def tabB : List (String × BCond) :=
  [("B.z", .z), ("B.nz", .nz), ("B.lt", .lt), ("B.ge", .ge), ("B.gt", .gt), ("B.le", .le)]
def tabBp : List (String × PCond) := [("B.pany", .pany), ("B.pnone", .pnone), ("B.pall", .pall)]

/-- Barriers. -/
def tabBar : List (String × (Nat → Nat → Instr)) := [("BAR", .bar), ("BAR.arv", .barArv), ("BAR.wt", .barWt)]

/-- VVOTE (R359). -/
def tabVote : List (String × VoteOp) :=
  [("VVOTE.ballot", .ballot), ("VVOTE.any", .any), ("VVOTE.all", .all), ("VVOTE.count", .count)]

/-- OFF14 of a branch word at `pc` (R253). -/
def offTo (pc : Nat) (target : Int) : Option Int :=
  if (target - pc) % 4 = 0 then some ((target - pc) / 4) else none

/-- The instructions named by their whole mnemonic. -/
def plain (pc : Nat) (m : String) (ops : List Opd) : Option Instr :=
  match ops with
  | [] => look tab0 m
  | [.s a] => (look tabS1 m).map (· a)
  | [.p a] => if m = "XMSET" then some (.xmset a) else if m = "XMPUSH" then some (.xmpush a) else none
  | [.imm i] =>
    if m = "BRA" then (offTo pc i).map .bra else if m = "CALL" then (offTo pc i).map .call
    else (look tabI m).map (· i)
  | [.s d, .s a] => (look tabS2 m).map (· d a)
  | [.s d, .p a] => (look tabSp m).map (· d a)
  | [.p d, .p a] => if m = "PNOT" then some (.pnot d a) else none
  | [.s d, .imm i] =>
    if m = "SMOVI" then some (.smovi d i) else if m = "SMOVI.hi" then some (.smoviHi d i)
    else if m = "SYSRD" then some (.sysrd d i)
    else do return .bcc (← look tabB m) d (← offTo pc i)
  | [.p d, .imm i] => do return .bccPred (← look tabBp m) d (← offTo pc i)
  | [.imm i, .s a] =>
    if m = "SYSWR" then some (.syswr a i) else do return (← look tabBar m) a (← natIn 0 16 i)
  | [.s d, .s a, .s b] => (look tabS3 m).map (· d a b)
  | [.p d, .p a, .p b] => (look tabP3 m).map (· d a b)
  | [.s d, .p p, .s b] => (look tabVote m).map (.vvote · d p b)
  | [.s d, .s a, .imm i] => match look tabSi m with
    | some f => some (f d a i)
    | none => do return (← look tabSh m) d a (← natIn 0 64 i)
  | [.s d, .imm w, .imm c] => if m = "RECLD" then do return .recldS d (← natIn 0 16 w) (← natIn 1 9 c) else none
  | [.s d, .s a, .s b, .imm n] => if m = "EMIT.S" then do return .emitS d a b (← natIn 0 16 n) else none
  | _ => none

/-- The scalar memory, ordering and VEXPR forms, which take suffixes and no predicate. -/
def unpredicated (base : String) (sf : List String) (ops : List Opd) : Option Instr :=
  let off (o : Int) (z : Size) : Option Int := if o % z.bytes = 0 then some (o / z.bytes) else none
  match base, ops with
  | "SLD", [.s d, .scalar a o] => do
    let (z, x) ← sized sf
    if x.only false true false true then return .sld d a (← off o z) z x.scope x.nt else none
  | "SST", [.scalar a o, .s d] => do
    let (z, x) ← sized sf
    if x.only false true false true then return .sst d a (← off o z) z x.scope x.nt else none
  | "PHASE", [] => do
    let (f, l) : (Nat → Instr) × List String := match sf with
      | "REL" :: r => (.phaseRel, r)
      | "ACQ" :: r => (.phaseAcq, r)
      | r => (.phase, r)
    let x ← sfx l
    -- device is the default, and written without an XP word (R113)
    if x.only false true false false then return f (if x.scope = 3 then 0 else x.scope) else none
  | "VEXPR", .v d :: r => do
    let (t, x) ← typed sf
    let .list l ← r.getLast? | none
    let ins ← r.dropLast.mapM (fun o => match o with | .v n => some n | _ => none)
    let i (k : Nat) : Nat := ins.getD k 0
    if x.only true false true false && decide (x.rnd ≤ 1) && decide (1 ≤ ins.length) && decide (ins.length ≤ 4)
        && decide (l.length ≤ 12) && l.all (fun k => (List.range 4).all (fun j => !k.names j || decide (j < ins.length)))
    then return .vexpr d (i 0) (i 1) (i 2) (i 3) t (l ++ List.replicate (12 - l.length) .fin) x.sat (x.rnd == 1)
    else none
  | _, _ => none

/-! ## Vector, tile and memory instructions (R273 to R277) -/

/-- With a type and `.sat`. -/
def tabSat : List (String × (Nat → Nat → VOp → Ty → Pred → Bool → Instr)) :=
  [("VADD", .vadd), ("VSUB", .vsub), ("VMUL", .vmul), ("VMAD", .vmad)]

/-- With a type alone. -/
def tabTy : List (String × (Nat → Nat → VOp → Ty → Pred → Instr)) :=
  [("VMULH", .vmulh), ("VDIV", .vdiv), ("VREM", .vrem), ("VSHL", .vshl), ("VSHR", .vshr), ("VSRA", .vsra),
   ("VMIN", .vmin), ("VMAX", .vmax), ("VFMIN", .vfmin), ("VFMAX", .vfmax), ("VSHFL", .vshfl)]

/-- With a type and a rounding. -/
def tabRnd : List (String × (Nat → Nat → VOp → Ty → Pred → Nat → Instr)) :=
  [("VFADD", .vfadd), ("VFSUB", .vfsub), ("VFMUL", .vfmul), ("VFMA", .vfma), ("VFMS", .vfms)]

/-- On whole lanes. -/
def tabLane : List (String × (Nat → Nat → VOp → Pred → Instr)) := [("VAND", .vand), ("VOR", .vor), ("VXOR", .vxor)]

/-- Operand B of format V. -/
def opB : Opd → Option VOp
  | .v n => some (.v n)
  | .s n => some (.s n)
  | _ => none

/-- D, A and operand B of format V. -/
def three (base : String) (sf : List String) (d a : Nat) (b : VOp) (q : Pred) : Option Instr :=
  match look tabLane base, look tabTy base, look tabRnd base, look tabSat base with
  | some f, _, _, _ => if sf.isEmpty then some (f d a b q) else none
  | _, some f, _, _ => do
    let (t, x) ← typed sf
    if x.only false false false false then return f d a b t q else none
  | _, _, some f, _ => do
    let (t, x) ← typed sf
    if x.only true false false false then return f d a b t q x.rnd else none
  | _, _, _, some f => do
    let (t, x) ← typed sf
    if x.only false false true false then return f d a b t q x.sat else none
  | _, _, _, _ =>
    let dp (f : Nat → Nat → Nat → Bool → Bool → Bool → Pred → Instr) : Option Instr := match b, sf with
      | .v n, xy :: r => do
        let (sa, sb) ← look [("ss", (true, true)), ("su", (true, false)), ("us", (false, true)), ("uu", (false, false))] xy
        let x ← sfx r
        if x.only false false true false then return f d a n x.sat sb sa q else none
      | _, _ => none
    if base = "VDP4" then dp .vdp4 else if base = "VDP8" then dp .vdp8 else none

/-- VCMP; .gt and .ge swap vA and vB (R337). -/
def compare (sf : List String) (d a : Nat) (b : VOp) (q : Pred) : Option Instr :=
  match sf with
  | [c, t] => do
    let t ← tyOf t
    let swap (f : Nat → Nat → VOp → Ty → Nat → Pred → Instr) : Option Instr := match b with
      | .v n => some (f d n (.v a) t 0 q)
      | .s _ => none
    if c = "gt" then swap .vcmpLt
    else if c = "ge" then swap .vcmpLe
    else do
      let f ← look [("eq", Instr.vcmpEq), ("ne", .vcmpNe), ("lt", .vcmpLt), ("le", .vcmpLe), ("un", .vcmpUn)] c
      return f d a b t 0 q
  | _ => none

/-- D and A, with what the suffixes say. -/
def two (base : String) (sf : List String) (d a : Nat) (q : Pred) : Option Instr :=
  let red (f : RedOp → Nat → Nat → Ty → Pred → Nat → Bool → Instr) : Option Instr := match sf with
    | o :: r => do
      let o ← look [("add", RedOp.add), ("min", .min), ("max", .max)] o
      let (t, x) ← typed r
      if x.only true false true false then return f o d a t q x.rnd x.sat else none
    | [] => none
  match base, sf with
  | "VNOT", [] => some (.vnot d a q)
  | "VMOV", [] => some (.vmov d a q)
  | "VCLZ", [t] => (tyOf t).map (.vclz d a · q)
  | "VPOPC", [t] => (tyOf t).map (.vpopc d a · q)
  | "VCVT", t :: r => do
    let (u, x) ← typed r
    if x.only true false true false then return .vcvt d a (← tyOf t) u q x.rnd x.sat else none
  | "VSF", [f] => (look [("rcp", SfFn.rcp), ("rsq", .rsq), ("exp2", .exp2), ("log2", .log2), ("sin", .sin),
      ("cos", .cos), ("tanh", .tanh), ("sqrt", .sqrt)] f).map (.vsf d a · q)
  | "VHAD", t :: h :: r => do
    let x ← sfx r
    if x.only true false false false && (h == "h16" || h == "h32") then
      return .vhad d a (h == "h32") (← tyOf t) q x.rnd else none
  | "VQNT", t :: u :: r => do
    let (h, r) : Nat × List String := match r with
      | "h16" :: r => (1, r)
      | "h32" :: r => (2, r)
      | r => (0, r)
    let x ← sfx r
    if x.only true false false false then return .vqnt d a (← tyOf t) (← tyOf u) h q x.rnd else none
  | "VRED", _ => red .vred
  | "VSCAN", _ => red .vscan
  | _, _ => none

/-- VATOM (R276): the operation, then the size. -/
def atomic (sf : List String) (d a b : Nat) (q : Pred) (noret sp : Bool) : Option Instr :=
  match sf with
  | o :: z :: r => do
    let o ← look [("add", AtOp.add), ("min", .min), ("max", .max), ("minu", .minu), ("maxu", .maxu), ("and", .and),
      ("or", .or), ("xor", .xor), ("xchg", .xchg), ("cas", .cas), ("fadd", .fadd)] o
    let x ← sfx r
    if !x.only false true false false then none
    else if z = "32" then return .vatom32 o d a b q x.scope noret sp
    else if z = "64" then return .vatom64 o d a b q x.scope noret sp
    else none
  | _ => none

/-- Loads, stores and atomics of format M; `st` when the address stands first. -/
def access (base : String) (sf : List String) (st : Bool) (d : Nat) (space b a : Nat) (q : Pred) : Option Instr :=
  let sh (f : Nat → Nat → Nat → Nat → Pred → Bool → Instr) : Option Instr := do
    let (z, x) ← sized sf
    if x.only false false false true && decide (z.code < 4) then return f d a b z.code q x.nt else none
  let sz (k : Size → Sfx → Option Instr) : Option Instr := do
    let (z, x) ← sized sf
    k z x
  match base, st, space with
  | "VLD", false, 0 => sz (fun z x => if x.only false true false true then some (.vld d a b z q x.scope x.nt) else none)
  | "VST", true, 0 => sz (fun z x => if x.only false true false true then some (.vst d a b z q x.scope x.nt) else none)
  | "VLD", false, 2 => sz (fun z x => if x.only false false false false then some (.vldLp d a b z q) else none)
  | "VST", true, 2 => sz (fun z x => if x.only false false false false then some (.vstLp d a b z q) else none)
  | "VATOM", _, 0 => atomic sf d a b q st false
  | "VATOM", _, 1 => atomic sf d a b q st true
  | "TLD", false, 3 => sh .tld
  | "TST", false, 3 => sh .tst
  | "SPLD", false, 1 => if sf = ["st", "64"] then some (.spldSt d a b q)
      else sz (fun z x => if x.only false false false false then some (.spld d a b z q) else none)
  | "SPLDS", false, 1 => if sf = ["64"] then some (.splds d a b q) else none
  | "SPST", true, 1 => sz (fun z x => if x.only false false false false then some (.spst d a b z q) else none)
  | "SPSTF", true, 1 => if sf = ["64"] then some (.spstf d a b q) else none
  | _, _, _ => none

/-- The instructions that may be predicated. -/
def predicated (base : String) (sf : List String) (ops : List Opd) (q : Pred) : Option Instr :=
  match ops with
  | [.v d] => match base, sf with
    | "VMOV", ["lane"] => some (.vmovLane d q)
    | "VRNG", [t] => (tyOf t).map (.vrng d · q)
    | _, _ => none
  | [.v d, .v a] => two base sf d a q
  | [.v d, .s a] => if base = "VMOV" ∧ sf = ["bcast"] then some (.vmovBcast d a q) else none
  | [.v d, .imm i] => match base, sf with
    | "VMOVI", [t] => (tyOf t).map (.vmovi d i · q)
    | _, _ => none
  | [.v d, .tile n col b o] => if base = "TRD" then do
      let (t, x) ← typed sf
      if x.only true false false false then return .trd d col n b (← natIn 0 256 o) t q x.rnd else none
    else none
  | [.tile n col b o, .v d] =>
    if base = "TWR" then do
      let (t, x) ← typed sf
      if x.only false false false false then return .twr d col n b (← natIn 0 256 o) t q else none
    else if base = "TTEST" ∧ sf.isEmpty then do return .ttest d col n b (← natIn 0 256 o) q
    else none
  | [.v d, .lane sp b a] => access base sf false d sp b a q
  | [.lane sp b a, .v d] => access base sf true d sp b a q
  | [.lane 1 b a] => if base = "SPSET" then
      (if sf = ["full"] then some (.spset true a b q) else if sf = ["empty"] then some (.spset false a b q) else none)
    else none
  | [.v d, .v a, .imm i] =>
    if base = "VADDI" then do
      let (t, x) ← typed sf
      if x.only false false true false then return .vaddi d a i t q x.sat else none
    else if base = "VTOPK" then do
      let k ← natIn 1 17 i
      match sf with
      | ["g", t] => return .vtopk d a true k (← tyOf t) q
      | [t] => return .vtopk d a false k (← tyOf t) q
      | _ => none
    else none
  | [.v d, .v a, b] => do three base sf d a (← opB b) q
  | [.p d, .v a, b] => if base = "VCMP" then do compare sf d a (← opB b) q else none
  | [.v d, .v a, b, .p p] => if base = "VSEL" ∧ sf.isEmpty then do return .vsel d a (← opB b) p q else none
  | [.s d, .s a, .s b] => if base = "SSEL" ∧ sf.isEmpty then some (.ssel d a b q) else none
  | [.v d, .imm w, .imm c] => if base = "RECLD" ∧ sf.isEmpty then
      do return .recldV d (← natIn 0 16 w) (← natIn 1 9 c) q else none
  | [.s d, .v a, b, .imm n] => if base = "EMIT" ∧ sf.isEmpty then
      do return .emit d a (← opB b) (← natIn 0 16 n) q else none
  | _ => none

/-! ## A unit -/

/-- The instruction of a line's tokens, at address `pc`. -/
def instruction (e : Env) (pc : Nat) (m : String) (ts : List Tkn) : Except Err Instr := do
  let isIf (t : Tkn) : Bool := t == .id "if"
  let args := ts.takeWhile (fun t => !isIf t)
  let q ← predication (ts.drop args.length)
  let sys := m == "SYSRD" || m == "SYSWR"
  let parts := dots m.toList []
  let base := parts.headD ""
  -- a branch names its target last, whatever the label is called
  let target : Nat := if base == "B" || m == "BRA" || m == "CALL" then (groups args).length - 1 else args.length
  let ops ← (groups args).zipIdx.mapM (fun g => if g.2 = target then do return .imm (← int e g.1) else operand e sys g.1)
  let sf := parts.tail
  let bare : Option Instr := match q with
    | some _ => none
    | none => match plain pc m ops with
      | some i => some i
      | none => match unpredicated base sf ops with
        | some i => some i
        | none => match m, ops with
          | "TZERO", [.t n] => some (.tzero n)
          | _, _ => none
  match bare with
  | some i => return i
  | none => match predicated base sf ops (q.getD ⟨0, false⟩) with
    | some i => return i
    | none => .error .operand

/-- Every value of an instruction fits its field (R264): the immediate of its format, a branch within reach, the
registers and the list of VEXPR (R261). -/
def fits : Instr → Bool
  | .saddi _ _ i | .sandi _ _ i | .sori _ _ i | .sxori _ _ i | .smovi _ i | .smoviHi _ i | .sysrd _ i | .syswr _ i
  | .wbase i | .regrel i | .regclm i => immOk i
  | .sld _ _ o _ _ _ | .sst _ _ o _ _ _ => imm7Ok o
  | .vaddi _ _ i _ _ _ | .vmovi _ i _ _ => imm7Ok i
  | .bra o | .call o | .bccPred _ _ o => offOk o
  | .bcc _ r o => decide (r < 128) && offOk o
  | .vexpr d i0 i1 i2 i3 _ l _ _ => [d, i0, i1, i2, i3].all (fun r => decide (r < 128)) && exprOk 0 l
  | _ => true

/-- The words of a unit (R264). An XP field that R256 forbids is an error; what else the device refuses at issue is
not. While symbols are not final, an instruction that is not one yet takes one word. -/
def unit (e : Env) (pc : Nat) (m : String) (ts : List Tkn) : Except Err (List Nat) :=
  match instruction e pc m ts with
  | .error x => if e.last then .error x else .ok [0]
  | .ok i =>
    if !e.last then .ok (encode i)
    else if !fits i then .error .field
    else match decode (encode i) with
      | .bad .xpField _ | .bad .prefixWord _ => .error .refused
      | _ => .ok (encode i)

end Sys2Proof.Rhas
end

