-- ==== Sys2Proof/Machine/RhasImage.lean ====
section
/-! DEFINITION. rhas, the assembly language (R262, R265 to R268): lines, directives, node lines, and the layout of
the image of a source file. -/

open Sys2Proof.Machine

namespace Sys2Proof.Rhas

/-! ## Lines (R262) -/

/-- A line: its label, and its mnemonic or directive with the tokens after it. -/
structure Line where
  label : Option String
  stmt : Option (String × List Tkn)
deriving DecidableEq, Repr

/-- Read a line. -/
def line (l : List Char) : Except Err Line :=
  let body := l.takeWhile (· != ';')
  let stmt (r : List Tkn) : Except Err (Option (String × List Tkn)) := match r with
    | [] => .ok none
    | .id m :: r => .ok (some (m, r))
    | _ => .error .line
  match body, lex body [] with
  | _, none => .error .line
  | [], _ => .ok ⟨none, none⟩
  | c :: _, some ts =>
    if blank c then do return ⟨none, ← stmt ts⟩
    else match ts with
      | .id n :: .ch d :: r => if d = ':' then do return ⟨some n, ← stmt r⟩ else .error .line
      | _ => .error .line

/-- The lines of a source file. -/
def splitLines : List Char → List Char → List (List Char)
  | [], p => [p.reverse]
  | c :: r, p => if c = '\n' then p.reverse :: splitLines r [] else splitLines r (c :: p)

/-! ## Layout -/

/-- The sections (R265). -/
inductive Sec where
  | text | const | data
deriving DecidableEq, Repr

/-- Where the sections lie, what symbols are worth and which of them are nodes. -/
structure Layout where
  text : Nat
  const : Nat
  data : Nat
  syms : List (String × Frac)
  nodes : List String := []
deriving DecidableEq, Repr

/-- A node between `.node` and `.endnode`: its descriptor, the lines given, and what they say of stages. -/
structure Open where
  node : Node
  given : List String := []
  entry : Option Nat := none
  stages : List Nat := []
  regs : List Nat := []
  budget : Option Nat := none
deriving DecidableEq, Repr

/-- The state of a pass over the source; `graph` is 0 before `.graph`, 1 in it, 2 after it. The bytes of each
section stand latest first. -/
structure Pass where
  graph : Nat := 0
  sec : Sec := .text
  text : List Byte := []
  const : List Byte := []
  data : List Byte := []
  node : Option Open := none
  nodes : List Node := []
  record : Option (String × Nat) := none
  syms : List (String × Frac) := []
  names : List String := []
deriving DecidableEq, Repr

/-- The bytes of the section selected, latest first. -/
def Pass.cur (p : Pass) : List Byte :=
  match p.sec with
  | .text => p.text
  | .const => p.const
  | .data => p.data

/-- Emit bytes to the section selected. -/
def Pass.emit (p : Pass) (bs : List Byte) : Pass :=
  match p.sec with
  | .text => { p with text := bs.reverse ++ p.text }
  | .const => { p with const := bs.reverse ++ p.const }
  | .data => { p with data := bs.reverse ++ p.data }

/-- The VA of the next byte. -/
def Pass.here (p : Pass) (l : Layout) : Nat :=
  (match p.sec with
    | .text => l.text
    | .const => l.const
    | .data => l.data) + p.cur.length

/-- Define a symbol. -/
def Pass.define (p : Pass) (n : String) (v : Frac) : Pass := { p with syms := p.syms ++ [(n, v)] }

/-- A condition that a source must meet once its symbols are final. -/
def Env.must (e : Env) (b : Bool) (x : Err) : Except Err Unit := if b || !e.last then .ok () else .error x

/-- A value of a field of numbers from `lo` below `hi`. -/
def Env.field (e : Env) (lo hi : Nat) (i : Int) : Except Err Nat :=
  match natIn lo hi i with
  | some n => .ok n
  | none => if e.last then .error .field else .ok lo

/-- The integers of a list of expressions. -/
def ints (e : Env) (ts : List Tkn) : Except Err (List Int) := (groups ts).mapM (int e)

/-- One number of a field. -/
def oneField (e : Env) (lo hi : Nat) (ts : List Tkn) : Except Err Nat := do e.field lo hi (← int e ts)

/-- The value of a 64-bit word; one that does not fit is an error (R262). -/
def word64 (e : Env) (ts : List Tkn) : Except Err Word := do
  let i ← int e ts
  e.must (decide (-(2 ^ 63 : Int) ≤ i) && decide (i < (2 ^ 64 : Int))) .field
  return BitVec.ofInt 64 i

/-! ## Data (R265) -/

/-- Values of `k` bytes, signed or unsigned. -/
def dataBytes (e : Env) (k : Nat) (ts : List Tkn) : Except Err (List Byte) := do
  let l ← ints e ts
  e.must (!l.isEmpty && l.all (fun i => decide (-(2 ^ (8 * k - 1) : Nat) ≤ i) && decide (i < (2 ^ (8 * k) : Nat)))) .field
  return l.flatMap (fun i => leBytes k (lowBits (8 * k) i))

/-- A decimal real rounded RNE to a format. -/
def real (t : Ty) (ts : List Tkn) : Except Err (List Byte) :=
  let go (neg : Bool) (n k : Nat) : Except Err (List Byte) :=
    let s := 256 + bitLen (10 ^ k)
    let m := n * 2 ^ s
    .ok (leBytes (t.width / 8) (roundF t 1 false false 0 neg (m / 10 ^ k) (-(s : Int)) (m % 10 ^ k != 0)).1)
  match ts with
  | [.num n] => go false n 0
  | [.dec n k] => go false n k
  | [.ch c, .num n] => if c = '-' then go true n 0 else .error .directive
  | [.ch c, .dec n k] => if c = '-' then go true n k else .error .directive
  | _ => .error .directive

/-- Padding to a multiple of `n` bytes from the VA `here`: NOP words in text, zeros elsewhere. A gap in text that whole
words cannot fill, after `.byte` or `.half`, is an error: the model's choice (log entry 111). -/
def padding (e : Env) (text : Bool) (here n : Nat) : Except Err (List Byte) := do
  let k := (n - here % n) % n
  if text then do
    e.must (k % 4 == 0) .directive
    return (List.replicate (k / 4) (leBytes 4 0x3E000000)).flatten
  else return List.replicate k 0

/-- A power of 2 from 4 to 4,096. -/
def alignOk (n : Nat) : Bool := [4, 8, 16, 32, 64, 128, 256, 512, 1024, 2048, 4096].contains n

/-! ## Nodes (R266) -/

/-- The tokens are the name of a node of the source. -/
def Env.isNode (e : Env) : List Tkn → Bool
  | [.id n] => e.nodes.contains n
  | _ => false

/-- Entries of OUT or PRED: V, RMT, node id. A remote target is the name of a node of the source. -/
def edges (e : Env) (rmt : Bool) (ts : List Tkn) : Except Err (List Nat) := do
  e.must (!rmt || (groups ts).all e.isNode) .node
  let l ← (groups ts).mapM (oneField e 0 4096)
  return l.map (fun n => 2 ^ 15 + (if rmt then 2 ^ 14 else 0) + n)

/-- A node line, by its name; none for another name. -/
def nodeLine (e : Env) (o : Open) (m : String) (ts : List Tkn) : Option (Except Err Open) :=
  let n := o.node
  let set (r : Except Err Node) : Option (Except Err Open) := some (do return { o with node := ← r })
  let flag (f : Node) : Option (Except Err Open) := set (if ts.isEmpty then .ok f else .error .directive)
  match m with
  | ".kind" => set (match ts with
      | [.id "gather"] => .ok { n with kind := 0 }
      | [.id "cohort"] => .ok { n with kind := 1 }
      | [.id "expand"] => .ok { n with kind := 2 }
      | [.id "expandmem"] => .ok { n with kind := 3 }
      | .id "persistent" :: .ch ',' :: r => do return { n with kind := 4, pcount := ← oneField e 1 4097 r }
      | _ => .error .directive)
  | ".crews" => set (do return { n with ncrew := ← oneField e 1 129 ts })
  | ".stages" => some (do return { o with stages := ← (groups ts).mapM (oneField e 0 129) })
  | ".regs" => some (do return { o with regs := ← (groups ts).mapM (oneField e 0 513) })
  | ".budget" => some (do
      let b ← oneField e 1 4097 ts
      e.must (b % 8 == 0) .field
      return { o with budget := some (b / 8) })
  | ".scratch" => set (do return { n with scratch := ← oneField e 0 1025 ts })
  | ".tiles" => set (do return { n with tiles := ← oneField e 0 65 ts })
  | ".cap" => set (do return { n with cap := ← oneField e 1 1048577 ts })
  | ".resident" => set (do return { n with resident := ← oneField e 0 4096 ts })
  | ".depth" => set (do return { n with maxdepth := ← oneField e 0 64 ts })
  | ".linger" => set (do return { n with linger := ← oneField e 0 (2 ^ 32) ts })
  | ".runlimit" => set (do return { n with runlimit := ← oneField e 1 (2 ^ 32) ts })
  | ".out" => set (do
      let l ← (match ts with
        | .id "remote" :: r => edges e true r
        | _ => edges e false ts)
      e.must (!l.isEmpty && decide (n.out.length + l.length ≤ 16)) .node
      return { n with out := n.out ++ l })
  | ".after" => set (do
      let l ← edges e false ts
      e.must (!l.isEmpty && decide (l.length ≤ 4)) .node
      return { n with pred := l })
  | ".early" => flag { n with early := true }
  | ".replayable" => flag { n with replay := true }
  | ".ingress" => flag { n with ingress := true }
  | ".handler" => set (do return { n with handler := ← word64 e ts })
  | ".bias" => set (do
      let b ← int e ts
      e.must (decide (-3 ≤ b) && decide (b ≤ 3)) .field
      return { n with pbias := b })
  | ".array" => set (do return { n with alast := (← oneField e 1 65537 ts) - 1 })
  | _ => none

/-- The name under which a node line is given once: `.out` and `.out remote` are two. -/
def lineName (m : String) (ts : List Tkn) : String :=
  match m, ts with
  | ".out", .id "remote" :: _ => ".out remote"
  | _, _ => m

/-- The descriptor of a node at `.endnode`: SSTART and IREG of its stages, BUDGET, ENTRY. -/
def Open.close (e : Env) (o : Open) : Except Err Node := do
  let n := o.node
  let st := if o.stages.isEmpty then [n.ncrew] else o.stages
  e.must (o.given.contains ".kind" && o.given.contains ".regs" && o.given.contains ".runlimit" && o.entry.isSome
    && decide (st.length ≤ 8) && decide (o.regs.length ≤ 8) && decide (st.sum = n.ncrew)
    && o.regs.all (fun r => r % 8 == 0)) .node
  let total := ((List.range 8).map (fun s => st.getD s 0 * (o.regs.getD s 0 / 8))).sum
  return { n with
    entry := BitVec.ofNat 64 (o.entry.getD 0)
    sstart := (List.range 8).map (fun s => (st.take s).sum)
    ireg := (List.range 8).map (fun s => o.regs.getD s 0 / 8)
    budget := o.budget.getD total }

/-- Put fields of `b` bits side by side. -/
def pack (b : Nat) (l : List Nat) : Nat := l.foldr (fun v n => n * 2 ^ b + v % 2 ^ b) 0

/-- The 16 words of a descriptor (R45). -/
def nodeWords (n : Node) : List Nat :=
  let bit (b : Bool) (k : Nat) : Nat := if b then 2 ^ k else 0
  let out (w : Nat) : Nat := pack 16 ((List.range 4).map (fun j => n.out.getD (4 * w + j) 0))
  [n.entry.toNat, n.const.toNat,
    n.kind + (n.ncrew - 1) * 2 ^ 4 + n.alast * 2 ^ 12 + n.maxdepth * 2 ^ 28 + bit n.early 34 + bit n.replay 35
      + lowBits 3 n.pbias * 2 ^ 36 + bit n.ingress 39,
    pack 8 n.sstart, pack 7 n.ireg,
    n.budget + n.scratch * 2 ^ 10 + n.tiles * 2 ^ 21 + n.resident * 2 ^ 28,
    n.cap + n.linger * 2 ^ 32, n.runlimit + n.pcount * 2 ^ 32, n.handler.toNat,
    out 0, out 1, out 2, out 3, pack 16 ((List.range 4).map (fun j => n.pred.getD j 0)), 0, 0]

/-! ## Statements (R265, R267) -/

/-- A directive that selects, defines or emits; none for another name. -/
def directive (e : Env) (l : Layout) (p : Pass) (m : String) (ts : List Tkn) : Option (Except Err Pass) :=
  let ok (b : Bool) (r : Except Err Pass) : Option (Except Err Pass) := some (if b then r else .error .directive)
  let inGraph : Bool := p.graph == 1 && p.record.isNone
  let data (r : Except Err (List Byte)) : Option (Except Err Pass) := ok inGraph (do return p.emit (← r))
  match m with
  | ".graph" => ok (p.graph == 0 && p.record.isNone) (match ts with
      | [.id _] => .ok { p with graph := 1 }
      | _ => .error .directive)
  | ".endgraph" => ok (inGraph && p.node.isNone && ts.isEmpty) (.ok { p with graph := 2 })
  | ".node" => ok (inGraph && p.node.isNone) (match ts with
      | .id n :: r =>
        let q := { p with sec := .text, names := p.names ++ [n] }.define n (.ofInt p.nodes.length)
        (match r with
        | [] => .ok { q with node := some { node := { cap := 1024 } } }
        | .ch ',' :: r => do
          return { q with node := some { node := { cap := 1024, const := ← word64 e r } } }
        | _ => .error .directive)
      | _ => .error .directive)
  | ".endnode" => ok (inGraph && ts.isEmpty) (match p.node with
      | some o => do return { p with node := none, nodes := p.nodes ++ [← o.close e] }
      | none => .error .directive)
  | ".record" => ok (decide (p.graph ≤ 1) && p.record.isNone) (match ts with
      | [.id n] => .ok { p with record := some (n, 0) }
      | _ => .error .directive)
  | ".field" => some (match p.record, ts with
      | some (n, j), [.id f] =>
        if j < 6 then .ok ({ p with record := some (n, j + 1) }.define (n ++ "." ++ f) (.ofInt (2 + j))) else .error .field
      | _, _ => .error .directive)
  | ".endrecord" => ok (p.record.isSome && ts.isEmpty) (.ok { p with record := none })
  | ".section" => ok inGraph (match ts with
      | [.id "text"] => .ok { p with sec := .text }
      | [.id "const"] => .ok { p with sec := .const }
      | [.id "data"] => .ok { p with sec := .data }
      | _ => .error .directive)
  | ".align" => ok inGraph (do
      let i ← int e ts
      e.must (decide (0 ≤ i) && alignOk i.toNat) .field
      let n := if alignOk i.toNat then i.toNat else 4
      return p.emit (← padding e (p.sec == .text) (p.here l) n))
  | ".byte" => data (dataBytes e 1 ts)
  | ".half" => data (dataBytes e 2 ts)
  | ".word" => data (dataBytes e 4 ts)
  | ".dword" => data (dataBytes e 8 ts)
  | ".bf16" => data (do return (← (groups ts).mapM (real .bf16)).flatten)
  | ".f32" => data (do return (← (groups ts).mapM (real .f32)).flatten)
  | ".equ" => ok p.record.isNone (match ts with
      | .id n :: .ch ',' :: r => (match value e r with
        | .ok (some v) => .ok (p.define n v)
        | .ok none => .ok p
        | .error x => if e.last then .error x else .ok p)
      | _ => .error .directive)
  | _ => none

/-- A statement. -/
def statement (e : Env) (l : Layout) (p : Pass) (m : String) (ts : List Tkn) : Except Err Pass :=
  match directive e l p m ts with
  | some r => r
  | none =>
    if p.graph ≠ 1 ∨ p.record.isSome then .error .directive
    else match p.node.bind (fun o => (nodeLine e o m ts).map (fun r => (o, r))) with
      | some (o, r) =>
        let k := lineName m ts
        if o.given.contains k || o.entry.isSome then .error .node
        else do return { p with node := some { ← r with given := k :: o.given } }
      | none =>
        if m.toList.head? = some '.' ∨ p.sec ≠ .text then .error .directive
        else do
          e.must (p.here l % 4 == 0) .directive
          let ws ← unit e (p.here l) m ts
          let node := p.node.map (fun o => if o.entry.isSome then o else { o with entry := some (p.here l) })
          return { p with node := node }.emit (ws.flatMap (leBytes 4))

/-- A line: its label takes the VA of what follows. -/
def lineStep (e : Env) (l : Layout) (p : Pass) (x : Line) : Except Err Pass :=
  let labelled : Except Err Pass := match x.label with
    | none => .ok p
    | some n => if p.graph = 1 ∧ p.record.isNone then .ok (p.define n (.ofInt (p.here l))) else .error .directive
  match x.stmt with
  | none => labelled
  | some (m, ts) => do statement e l (← labelled) m ts

/-! ## The image (R268) -/

/-- The next multiple of 4 KiB. -/
def up (n : Nat) : Nat := (n + 4095) / 4096 * 4096

/-- The layout that a pass comes to, for an image loaded at `va`. -/
def Pass.layout (p : Pass) (va : Nat) : Layout :=
  let t := up (va + 128 + 128 * p.nodes.length)
  let c := up (t + p.text.length)
  { text := t, const := c, data := up (c + p.const.length), syms := p.syms, nodes := p.names }

/-- Pass over the source until the layout no longer changes, at most so many times. -/
def settle (va : Nat) (ls : List Line) : Nat → Layout → Except Err Layout
  | 0, _ => .error .symbol
  | k + 1, l => do
    let p ← ls.foldlM (lineStep ⟨l.syms, false, l.nodes⟩ l) {}
    if p.layout va = l then return l else settle va ls k (p.layout va)

/-- The nodes pass R47. -/
def nodesOk (ns : List Node) : Bool :=
  decide (1 ≤ ns.length) && decide (ns.length ≤ 4096)
    && (List.range ns.length).all (fun i => (ns.getD i {}).ok ns.length i) && !predCycle ns

/-- Names that differ. -/
def distinct : List String → Bool
  | [] => true
  | n :: r => !r.contains n && distinct r

/-- Bytes with a section after them at its VA; an empty section adds nothing. -/
def place (va : Nat) (img : List Byte) (base : Nat) (bs : List Byte) : List Byte :=
  if bs.isEmpty then img else img ++ List.replicate (base - va - img.length) 0 ++ bs

/-- Passes after which a source of `n` lines has settled, if it does: each line grows a few times, by a prefix at a
time, and what has grown is known to every symbol that is defined by it after at most a pass for each line. -/
def passes (n : Nat) : Nat := (4 * n + 8) * (n + 8)

/-- The image of a source, laid out at `va`. -/
def assemble (va : Nat) (src : String) : Except Err (List Byte) := do
  let ls ← (splitLines src.toList []).mapM line
  let l ← settle va ls (passes ls.length) ⟨up (va + 128), up (va + 128), up (va + 128), [], []⟩
  let p ← ls.foldlM (lineStep ⟨l.syms, true, l.nodes⟩ l) {}
  if p.graph ≠ 2 then .error .directive
  else if !distinct (p.syms.map (·.1)) then .error .twice
  else if !nodesOk p.nodes then .error .node
  else
    let head := ([0x3149474C + p.nodes.length * 2 ^ 32, 128] ++ List.replicate 14 0).flatMap (leBytes 8)
    let img := head ++ (p.nodes.flatMap nodeWords).flatMap (leBytes 8)
    return place va (place va (place va img l.text p.text.reverse) l.const p.const.reverse) l.data p.data.reverse

end Sys2Proof.Rhas
end

