-- ==== Sys2Proof/Tests/Slice0.lean ====
section
/-! SUPPORT. Tests: words of the manual, ill-formed terms, one-step examples with the manual's results,
and for every statement a state and operands that meet its hypotheses. -/

namespace Sys2Proof.Tests

set_option Elab.async false

open Sys2Proof Sys2Proof.Machine

/-! ## A small machine: one crew of one cohort on core 0, with one node -/

/-- A node with a handler. -/
def node : Node :=
  { entry := 0x1000, handler := 0x2000, ireg := [64, 0, 0, 0, 0, 0, 0, 0], budget := 64, tiles := 64, scratch := 64 }

/-- A crew at 0x1000 with all lanes active and every vector register. -/
def crew : Crew :=
  { uid := 0, idx := 0, size := 512, r := { pc := 0x1000 }, m := { om := Mask.all, xm := Mask.all } }

/-- Its cohort. -/
def coh : Cohort :=
  { uid := 0, inst := 0, serial := 1, node := 0, elem := 0
    sh := { ncrew := 1, core := 0, budget := 512, free := 0, kib := 64, tiles := 64 } }

/-- The machine with a crew and its cohort. -/
def mach (c : Crew) (h : Cohort) : State :=
  { State.reset with insts := [{ slot := 0, nodes := [node] }], cohorts := [h], crews := [c], cur := (0, 0) }

/-- The crew with scalar registers. -/
def withS (s : SMap Word) : Crew := { crew with r := { crew.r with s := s } }

/-- The crew with vector lanes. -/
def withV (v : SMap Word) : Crew := { crew with r := { crew.r with v := v } }

/-- The machine with the manual's kind of tables: the first GiB of die 0 at its own addresses, for loads, stores
and atomics of core 0. -/
def memMach (c : Crew) (h : Cohort) : State :=
  let s := mach c h
  { s with
    mem := { s.mem with mem := putBytes (putBytes [] 0x10000 (leBytes 8 0x20063)) 0x20000 (leBytes 8 0x47) }
    mmu := { s.mmu with
      ctxs := [{ n := 0, root0 := 0x10000 }]
      filter := [{ core := 0, ctx := 0, page := 0, r := true, w := true }] } }

/-- What a one-step test looks at in the crew after the step. -/
def after (s : State) (i : Instr) (f : Crew → Word) : Option Word :=
  match exec i s with
  | .next t => (t.crew? 0 0).map f
  | _ => none


/-- A crew of the small machine issues. -/
theorem mach_issues (c : Crew) (h : Cohort) (hu : c.uid = 0) (hi : c.idx = 0) (hh : h.uid = 0) :
    (mach c h).Issues c h := by
  simp [State.Issues, mach, State.crew?, State.cohort?, hu, hi, hh]

/-- And with the tables. -/
theorem memMach_issues (c : Crew) (h : Cohort) (hu : c.uid = 0) (hi : c.idx = 0) (hh : h.uid = 0) :
    (memMach c h).Issues c h := by
  simp [State.Issues, memMach, mach, State.crew?, State.cohort?, hu, hi, hh]

/-! ## What meets the hypotheses of the statements, one or more theorems for each -/

/-- ScalarRegisterForms, ScalarShiftsAndImmediates, ScalarFieldsAndTests, Branches, PredicatesAndMasks,
SystemRegisters: a crew issues, no SSTEP follows. -/
theorem witness_plain : (mach crew coh).Issues crew coh ∧ crew.NoStep ∧ crew.NoArith ∧ (63 : Nat) < 64 :=
  ⟨mach_issues _ _ rfl rfl rfl, rfl, by unfold Crew.NoArith; decide, by decide⟩

/-- ScalarFieldsAndTests: the counts 64 and 0 of SCLZ, of 0 and of a negative number. -/
theorem witness_sclz : ((crew.sr 1).toNat < 2 ^ (64 - 64)) ∧
    (((withS [(1, 0x8000000000000000)]).sr 1).toNat < 2 ^ (64 - 0) ∧
      2 ^ (63 - 0) ≤ ((withS [(1, 0x8000000000000000)]).sr 1).toNat) := by decide

/-- Branches: targets that are word addresses, and targets that are not. -/
theorem witness_jumps : (crew.sr 191).toNat % 4 = 0 ∧ (crew.sr 1).toNat % 4 = 0
    ∧ ((withS [(1, 2), (191, 2)]).sr 191).toNat % 4 ≠ 0 ∧ ((withS [(1, 2), (191, 2)]).sr 1).toNat % 4 ≠ 0
    ∧ (mach (withS [(1, 2), (191, 2)]) coh).Issues (withS [(1, 2), (191, 2)]) coh :=
  ⟨by decide, by decide, by decide, by decide, mach_issues _ _ rfl rfl rfl⟩

/-- A crew whose handler may run. -/
theorem handles (c : Crew) (hg : c.g.hnd = false) (hf : c.g.ccr.getLsbD 13 = false) : (mach c coh).Handles c coh := by
  refine ⟨?_, hg, rfl, hf⟩
  show node.handler ≠ 0
  decide

/-- PredicatesAndMasks: XMPUSH with 31 entries; XMPOP and XMELSE outside and inside a handler. -/
theorem witness_maskStack : ({ crew.m with msd := 31 } : Masks).msd < 32 ∧ (0 : Nat) < ({ crew.m with msd := 1 } : Masks).msd
    ∧ (if true then (4 : Nat) else 0) < 5 := by decide

/-- SystemRegisters: a rounding mode that CCR takes; WBASE 63; NFL mask 6. -/
theorem witness_systemWrites : ((withS [(1, 5)]).sr 1).toNat % 8 < 6 ∧ (63 : Nat) < 64 ∧ (6 : Nat) < 7 := by decide

/-- RegisterPool: half of the allocation returned; a claim of what is free. -/
theorem witness_registerPool :
    crew.w = {} ∧ (mach crew coh).claims coh.uid = [] ∧ (0 : Nat) < 256 ∧ 256 % 8 = 0 ∧ 256 < crew.size
      ∧ (mach { crew with size := 256 } { coh with sh := { coh.sh with free := 256 } }).claims 0 = []
      ∧ 256 ≤ ({ coh with sh := { coh.sh with free := 256 } } : Cohort).sh.free
      ∧ ({ crew with size := 256 } : Crew).size + 256 ≤ 512 := by decide

/-- TrapsAndReturn, first part: the handler may run. -/
theorem witness_softwareTraps : (mach crew coh).Issues crew coh ∧ (mach crew coh).Handles crew coh :=
  ⟨mach_issues _ _ rfl rfl rfl, handles _ rfl rfl⟩

/-- A crew in its handler. -/
def inHandler : Crew := { crew with g := { crew.g with hnd := true }, h := { pc := 0x1004, xm := Mask.all } }

/-- TrapsAndReturn, second part: with no halt, and with the halt of the crew's own trap under FRZ. -/
theorem witness_return :
    (mach inHandler coh).Issues inHandler coh ∧ inHandler.g.hnd = true ∧ inHandler.g.exited = false ∧ inHandler.h.w = {}
      ∧ (mach inHandler coh).claims 0 = [] ∧ coh.halt = none
      ∧ (mach inHandler { coh with halt := some ⟨0, { cause := 12, pc := 0, resume := 4 }, false, false, 0, 0, true⟩ }).Issues
          inHandler { coh with halt := some ⟨0, { cause := 12, pc := 0, resume := 4 }, false, false, 0, 0, true⟩ }
      ∧ (mach inHandler { coh with halt := some ⟨0, { cause := 12, pc := 0, resume := 4 }, false, false, 0, 0, true⟩ }).claims 0
          = [] :=
  ⟨mach_issues _ _ rfl rfl rfl, rfl, rfl, rfl, by decide, rfl, mach_issues _ _ rfl rfl rfl, by decide⟩

/-- A YIELD whose wait a round has ended. -/
def yielded : Crew := { crew with w := { begun := true } }

/-- NopYieldExit: YIELD before and after its wait; EXIT of the last crew, and with another crew running. -/
theorem witness_yieldExit :
    yielded.w.begun = true ∧ yielded.w.kind = .none ∧ crew.w = {} ∧ crew.g.hnd = false ∧ crew.fail = none
      ∧ coh.halt = none ∧ (mach crew coh).release crew coh 3 = .done
      ∧ crew.pend = [] ∧ (crew.g.ccr.getLsbD 12 && !crew.g.hnd) = false
      ∧ (∀ d ∈ (mach crew coh).crewsOf 0, d.idx = crew.idx ∨ (d.g.exited = true ∧ d.g.hnd = false ∧ d.w.kind = .none ∧ d.pend = []))
      ∧ coh.ev ≠ .dead ∧ (∀ x ∈ (mach crew coh).eng.items, x.uid ≠ 0) ∧ (mach crew coh).owes 0 = false
      ∧ ({ mach crew coh with crews := [crew, { crew with idx := 1 }] }).release crew coh 3 = .done
      ∧ ∃ d ∈ ({ mach crew coh with crews := [crew, { crew with idx := 1 }] }).crewsOf 0,
          d.idx ≠ crew.idx ∧ d.g.exited = false ∧ d.w.kind = .none := by decide

/-- NopYieldExit: a crew in the handler of its EXIT's SSTEP, the last of its cohort. -/
theorem witness_exitHandler :
    let c : Crew := { inHandler with g := { inHandler.g with exited := true } }
    c.g.hnd = true ∧ c.g.exited = true ∧ c.h.w = {} ∧ c.pend = [] ∧ c.fail = none
      ∧ (∀ d ∈ (mach c coh).crewsOf 0, d.idx = c.idx) ∧ (mach c coh).eng.items = [] ∧ (mach c coh).owes 0 = false := by decide

/-- IllegalAndSingleStep: an empty mask stack, a full one, numbers at the edges of every range, and SSTEP set. -/
theorem witness_illegal :
    crew.m.msd = 0 ∧ 32 ≤ ({ crew.m with msd := 32 } : Masks).msd ∧ (63 : Int) < 64 ∧ (-1 : Int) < 0
      ∧ (512 : Int) ≤ 512 ∧ (4 : Int) % 8 ≠ 0 ∧ crew.w.begun = false ∧ (512 : Int) < (crew.size : Int) + 8
      ∧ 6 ≤ ((withS [(1, 6)]).sr 1).toNat % 8 ∧ (52 : Int) < 53
      ∧ (mach { crew with g := { ccr := 0x1000 } } coh).Handles { crew with g := { ccr := 0x1000 } } coh
      ∧ ({ crew with g := { ccr := 0x1000 } } : Crew).g.ccr.getLsbD 12 = true
      ∧ ({ crew with g := { ccr := 0x1000 } } : Crew).w = {} :=
  ⟨by decide, by decide, by decide, by decide, by decide, by decide, by decide, by decide, by decide, by decide,
    handles _ rfl (by decide), by decide, by decide⟩

/-- The vector statements: operands within the allocation, vector and scalar B, an integer and a float type. -/
theorem witness_vector :
    crew.vOk 1 1 = true ∧ crew.vOk 2 1 = true ∧ crew.bOk (.v 3) = true ∧ crew.bOk (.s 3) = true
      ∧ crew.vOk 255 1 = true ∧ Ty.isInt .s8 = true ∧ Ty.isInt .f32 = false ∧ (1 : Nat) < Ty.count .s32 := by decide

/-- FloatCorners: a NaN operand, a nonzero number. FloatRoundTrip: a pattern that is no NaN. -/
theorem witness_float : FV.isNan (decodeF .f32 0x7FC00000) = true ∧ (0 : Nat) < 1
    ∧ 0xFF800000 < 2 ^ Ty.width .f32 ∧ FV.isNan (decodeF .f32 0xFF800000) = false := by decide

/-- VectorConvertAndQuantize: a value with its companion register; a block of BF16 for E2M1S. -/
theorem witness_convert : crew.vOk 2 2 = true ∧ crew.vOk 4 2 = true ∧ crew.vOk 8 (16 / Ty.count .bf16) = true := by decide

/-- VectorExpressionHadamard: a legal token list, its registers within the allocation and not, its words, and words of an
illegal list; VHAD with a vacant lane. -/
theorem witness_expression :
    let toks : List Tok := [.i0, .i1, .mul, .i2, .add, .fin, .fin, .fin, .fin, .fin, .fin, .fin]
    Spec.legal toks = true ∧ toks.contains .i3 = false ∧ crew.vOk 1 1 = true ∧ crew.vOk 5 1 = true
      ∧ ({ crew with size := 8 } : Crew).vOk 5 1 = true ∧ ({ crew with size := 8 } : Crew).vOk 8 1 = false
      ∧ 0x8414082A / 2 ^ 25 = 0x42 ∧ 0x8414082A % 16 = 0xA ∧ Spec.legal [.add] = false
      ∧ mbit ({ crew.m with om := 1 } : Masks).om 1 = false := by decide

/-- VectorFloat and VectorCompares: two numbers in order, the zeros, an infinity. FunctionBounds: 0.5, 1, 2^-127, 3 and
infinity among the patterns, and one that a flush leaves. -/
theorem witness_functions :
    Spec.val (decodeF .f32 0x3F000000) < Spec.val (decodeF .f32 0x3F800000)
      ∧ Spec.finite (decodeF .f32 0x3F000000) = true ∧ FV.isNan (.inf true) = false
      ∧ Spec.finite (operandF false .f32 0x3F000000) = true ∧ (Spec.val (operandF false .f32 0x3F000000)).den ≠ 1
      ∧ Spec.val (operandF false .f32 0x3F000000) < 128 ∧ (128 : Rat) ≤ Spec.val (operandF false .f32 0x43000000)
      ∧ Spec.val (operandF false .f32 0xC3000000) = ((-128 : Int) : Rat)
      ∧ Spec.val (operandF false .f32 0x3F800000) = (2 : Rat) ^ (0 : Int) ∧ 0 < Spec.val (operandF false .f32 0x40400000)
      ∧ operandF true .f32 0x3F000000 = operandF false .f32 0x3F000000 := by decide +kernel

/-- A crew with TRAPEN.NX set and 2^24 and 1 in lane 0 of v1 and v2. -/
def inexact : Crew := { withV [(32, 0x4B800000), (64, 0x3F800000)] with g := { ccr := 0x100 } }

/-- ArithmeticTrapsAndAborts, first part: the sum is not exact in lane 0 alone. -/
theorem witness_arith : (mach inexact coh).Issues inexact coh ∧ (mach inexact coh).Handles inexact coh ∧ (1 : Mask) ≠ 0
    ∧ ∀ l < 32, mbit (1 : Mask) l = (mbit (inexact.em ⟨0, false⟩) l && (List.range 6).any (fun k =>
      inexact.g.ccr.getLsbD (4 + k) && (List.range (Ty.count .f32)).any (fun j =>
        (addF .f32 (inexact.rmode 0) inexact.ftz (operandF inexact.ftz .f32 (elem 32 (inexact.vl 1 l) j))
          (operandF inexact.ftz .f32 (bElem inexact (.v 2) 32 l j))).2.bit k))) :=
  ⟨mach_issues _ _ rfl rfl rfl, handles _ rfl (by decide), by decide, by decide⟩

/-- The small machine with a second crew that runs. -/
def twoCrews (c : Crew) : State := { mach c coh with crews := [c, { crew with idx := 1 }] }

/-- ArithmeticTrapsAndAborts, second part: in a handler, with a sibling that runs, and alone, with REPLAY and without. -/
theorem witness_aborts :
    (twoCrews inHandler).crew? 0 1 = some { crew with idx := 1 } ∧ inHandler.g.hnd = true ∧ coh.halt = none
      ∧ ({ crew with idx := 1 } : Crew).g.stopping = false ∧ ({ crew with idx := 1 } : Crew).w.kind = .none
      ∧ (mach inHandler coh).inst? 0 = some { slot := 0, nodes := [node] }
      ∧ ({ slot := 0, nodes := [node] } : Inst).l.serial = coh.serial
      ∧ (∀ d ∈ (mach inHandler coh).crewsOf 0, d.idx = inHandler.idx ∨ d.g.exited = true ∨ d.g.frozen = true)
      ∧ ((({ slot := 0, nodes := [node] } : Inst).node 0).replay && !coh.effects) = false
      ∧ ((({ slot := 0, nodes := [{ node with replay := true }] } : Inst).node 0).replay && !coh.effects
        && coh.recs.all (fun x => decide (x.req < 2))) = true := by decide

/-- TileTransfers: the last tile of the core; a status below 8. -/
theorem witness_tiles : (63 : Nat) < coh.sh.tiles ∧ SMap.get 0 coh.tl.st (64 * coh.side 0 + 63) < 8 := by decide

/-- A crew with lane 0 active, 0x3000 in s1 and in lane 0 of v1. -/
def oneLane : Crew :=
  { withV [(32, 0x3000)] with r := { pc := 0x1000, s := [(1, 0x3000)], v := [(32, 0x3000)] }, m := { om := Mask.all, xm := 1 } }

/-- GlobalTransfers and GlobalAtomicOperations: one lane at an aligned home; no lane. -/
theorem witness_global :
    (memMach oneLane coh).Issues oneLane coh ∧ oneLane.NoStep ∧ oneLane.w = {} ∧ (memMach oneLane coh).NoLog oneLane
      ∧ (1 + Size.regs .quad ≤ 192) ∧ (oneLane.sr 1 + BitVec.ofInt 64 (0 * Size.bytes .b64)).toNat % 8 = 0
      ∧ (memMach oneLane coh).Homes oneLane coh .load 0x3000 8 0x3000
      ∧ (memMach oneLane coh).Homes oneLane coh .store 0x3000 8 0x3000
      ∧ oneLane.vOk 2 4 = true ∧ oneLane.vOk 1 1 = true
      ∧ activeLanes (oneLane.em ⟨0, false⟩) ≠ [] ∧ activeLanes ({ oneLane with m := { om := 1, xm := 0 } }.em ⟨0, false⟩) = []
      ∧ (∀ l ∈ activeLanes (oneLane.em ⟨0, false⟩), (laneAddr oneLane 1 0 l).toNat % 8 = 0
        ∧ (memMach oneLane coh).Homes oneLane coh .load (laneAddr oneLane 1 0 l) 8 0x3000
        ∧ (memMach oneLane coh).Homes oneLane coh .store (laneAddr oneLane 1 0 l) 8 0x3000
        ∧ (memMach oneLane coh).Homes oneLane coh .atomic (laneAddr oneLane 1 0 l) 8 0x3000) := by
  refine ⟨memMach_issues _ _ rfl rfl rfl, rfl, rfl, ?_, ?_⟩
  · unfold State.NoLog; decide
  · unfold State.Homes; decide

/-- LanePrivate: a lane area of 64 bytes, read and written at its end. -/
theorem witness_lanePrivate :
    let c := withV [(32, 56)]
    let c1 : Crew := { c with m := { om := Mask.all, xm := 1 } }
    let s : State := { mach c1 coh with insts := [{ slot := 0, nodes := [node], a := { lpSize := 64 } }] }
    c1.vOk 2 1 = true ∧ c1.vOk 1 1 = true
      ∧ ∀ l ∈ activeLanes (c1.em ⟨0, false⟩), (laneAddr c1 1 0 l).toNat % 8 = 0
        ∧ (laneAddr c1 1 0 l).toNat + 8 ≤ s.lpSize coh := by decide

/-- A crew whose two lanes address the last two words of the scratchpad. -/
def spCrew : Crew := { withV [(32, 65520), (33, 65528)] with m := { om := Mask.all, xm := 3 } }

/-- Its cohort with both words full. -/
def spFull : Cohort := { coh with sp := { w := [(8190, 7), (8191, 9)], full := [(8190, true), (8191, true)] } }

/-- ScratchpadWords and ScratchpadSynchronised: two lanes at the end of the scratchpad, their words empty and full, with
no earlier waiter. -/
theorem witness_scratchpad :
    spCrew.SpOk coh (spCrew.em ⟨0, false⟩) 1 0 8 ∧ spCrew.SpOk coh (spCrew.em ⟨0, false⟩) 1 0 4
      ∧ spCrew.w = {} ∧ spCrew.vOk 2 2 = true
      ∧ (∀ l ∈ activeLanes (spCrew.em ⟨0, false⟩), ∀ l' ∈ activeLanes (spCrew.em ⟨0, false⟩),
        (laneAddr spCrew 1 0 l).toNat = (laneAddr spCrew 1 0 l').toNat → l = l')
      ∧ (∀ l ∈ activeLanes (spCrew.em ⟨0, false⟩),
        (mach spCrew spFull).spEarlier spCrew (laneAddr spCrew 1 0 l).toNat true = false
          ∧ SMap.get false spFull.sp.full ((laneAddr spCrew 1 0 l).toNat / 8) = true)
      ∧ (∀ l ∈ activeLanes (spCrew.em ⟨0, false⟩),
        (mach spCrew coh).spEarlier spCrew (laneAddr spCrew 1 0 l).toNat false = false
          ∧ SMap.get false coh.sp.full ((laneAddr spCrew 1 0 l).toNat / 8) = false)
      ∧ activeLanes (spCrew.em ⟨0, false⟩) = 0 :: [1] := by unfold Crew.SpOk; decide

/-- A context whose shard table lies at 0x4000, with descriptor 0 of a vector of 4 words on one shard, whose map at
0x5000 names 0x6000. -/
def shardMach (c : Crew) : State :=
  let s := memMach c coh
  let put (m : List Host.Cell) (e : Nat × Nat) : List Host.Cell := putBytes m e.1 (leBytes 8 e.2)
  { s with
    mem := { s.mem with mem := [(0x4000, 0x301), (0x4008, 0x5000), (0x4010, 0x100000004), (0x4018, 0x100000001),
      (0x4020, 0x100000004), (0x4028, 0x100000001), (0x4030, 0x0001000100010001), (0x4038, 1), (0x5000, 0x6000)].foldl put s.mem.mem }
    mmu := { s.mmu with ctxs := [{ n := 0, root0 := 0x10000, shard := 0x4000 }] } }

/-- Lane 0 names element 3 and lane 1 element 4, a pad. -/
def shardCrew : Crew := { withV [(32, 3), (33, 4)] with m := { om := Mask.all, xm := 3 } }

/-- The words of its descriptor. -/
def shardWords (k : Nat) : Word := [0x301, 0x5000, 0x100000004, 0x100000001, 0x100000004, 0x100000001, 0x0001000100010001, 1].getD k 0

/-- ShardedAccess: one lane within the tensor and one pad. -/
theorem witness_sharded :
    shardCrew.vOk 1 2 = true ∧ shardCrew.vOk 3 1 = true ∧ (shardMach shardCrew).mmu.marl = []
      ∧ (∀ r ∈ (shardMach shardCrew).mem.remote, r.who ≠ .marl 0 0) ∧ shardCrew.w = {} ∧ shardCrew.NoStep
      ∧ (shardMach shardCrew).NoLog shardCrew
      ∧ activeLanes (shardCrew.em ⟨0, false⟩) = [0, 1]
      ∧ (shardMach shardCrew).marlEntry shardCrew coh 0 0x4000 8 = .words ((List.range 8).map shardWords)
      ∧ (shardMach shardCrew).marlEntry shardCrew coh 0 0x5000 1 = .words [0x6000]
      ∧ (let x (k : Nat) : Nat := (shardWords k).toNat
         let dim (i : Nat) : Nat := (shardWords (2 + i / 2)).toNat / 2 ^ (32 * (i % 2)) % 2 ^ 32
         let ext (i : Nat) : Nat := (shardWords (4 + i / 2)).toNat / 2 ^ (32 * (i % 2)) % 2 ^ 32
         let grid (i : Nat) : Nat := (shardWords 6).toNat / 2 ^ (16 * i) % 2 ^ 16
         x 0 / 2 ^ 13 = 0 ∧ x 0 / 2 ^ 10 % 4 = 0 ∧ x 0 / 2 ^ 3 % 32 = 0 ∧ 1 ≤ x 0 % 8 ∧ x 0 % 8 ≤ 4
          ∧ (∀ d < 4, x 0 % 8 ≤ d → dim d = 1 ∧ ext d = 1 ∧ grid d = 1)
          ∧ (∀ d < 4, 1 ≤ ext d ∧ grid d = (dim d + ext d - 1) / ext d)
          ∧ x 7 < 2 ^ 32 ∧ x 7 = grid 0 * grid 1 * grid 2 * grid 3)
      ∧ (shardWords 0).toNat / 2 ^ 8 % 4 = 3 ∧ (shardWords 0).getLsbD 12 = false
      ∧ (shardMach shardCrew).Homes shardCrew coh .load 0x6018 8 0x6018
      ∧ (shardMach shardCrew).Homes shardCrew coh .store 0x6018 8 0x6018 := by unfold State.Homes Crew.NoStep State.NoLog; decide +kernel

/-- WaitForWord: a word of memory and one of the scratchpad, conditions that hold and that do not. -/
theorem witness_waitForWord :
    (oneLane.sr 1).toNat % 8 = 0 ∧ (memMach oneLane coh).Homes oneLane coh .load (oneLane.sr 1) 8 0x3000
      ∧ (∀ e ∈ (memMach oneLane coh).mem.stores, e.uid = 0 → e.idx = 0 → e.va.toNat / 8 ≠ 0x3000 / 8)
      ∧ (∀ l ∈ (memMach oneLane coh).mem.loads, l.uid ≠ 0 ∨ l.idx ≠ 0)
      ∧ (memMach oneLane coh).readKey 0x3000 8 = oneLane.sr 2 ∧ ¬ (memMach oneLane coh).readKey 0x3000 8 = oneLane.sr 1
      ∧ (oneLane.sr 1).toNat + 8 ≤ 1024 * coh.sh.kib
      ∧ SMap.get 0 coh.sp.w 0x600 = oneLane.sr 2 ∧ ¬ SMap.get 0 coh.sp.w 0x600 = oneLane.sr 1 := by
  unfold State.Homes; decide

/-- A store of the crew on its way, ordinary or non-temporal. -/
def store (nt : Bool) : Store :=
  { id := 5, serial := 1, uid := 0, idx := 0, pc := 0x1000, lane := 0, va := 0x3000, n := 8, key := 0x3000, data := 0x1122334455667788, nt := nt }

/-- A load of the crew on its way. -/
def load : Load :=
  { id := 6, uid := 0, idx := 0, pc := 0x1000, resume := 0x1004, bound := 0
    parts := [{ lane := 0, va := 0x3000, n := 8, key := 0x3000, dst := .v 64 }] }

/-- The machine with stores and loads on their way. -/
def busy (st : List Store) (ld : List Load) : State :=
  let s := memMach crew coh
  { s with mem := { s.mem with stores := st, loads := ld }, fresh := { s.fresh with stamp := 3 } }

/-- PhaseAndRelease: with nothing on its way, with a store, a non-temporal store, or a load. -/
theorem witness_phase :
    crew.fail = none ∧ (mach crew coh).release crew coh 3 = .done ∧ (mach crew coh).release crew coh 4 = .done
      ∧ (mach crew coh).mem.loads = [] ∧ (mach crew coh).mem.log = [] ∧ (mach crew coh).mem.stores = []
      ∧ (∃ e ∈ (busy [store false] []).mem.stores, (e.uid = 0 ∧ e.idx = 0) ∧ e.nt = false ∧ e.remote = none)
      ∧ (∃ e ∈ (busy [store true] []).mem.stores, (e.uid = 0 ∧ e.idx = 0) ∧ e.nt = true)
      ∧ (∃ l ∈ (busy [] [load]).mem.loads, l.uid = 0 ∧ l.idx = 0)
      ∧ (∀ l ∈ (busy [store true] []).mem.loads, ¬ (l.uid = 0 ∧ l.idx = 0))
      ∧ (∀ e ∈ (busy [store true] []).mem.stores, (e.uid = 0 ∧ e.idx = 0) → e.nt = true) ∧ crew.g.hnd = false := by decide

/-- MemoryEvents, first part: a store, and an atomic with a register to fill. -/
theorem witness_storePerformed :
    let a : Store := { store false with op := some .add, dst := .v 64 }
    (busy [store false] []).mem.stores.find? (fun x => x.id == 5) = some (store false)
      ∧ (busy [store false] []).storeBehind (store false) = false ∧ (busy [store false] []).l1Behind (store false) = false
      ∧ (busy [a] []).storeBehind a = false ∧ (busy [a] []).l1Behind a = false
      ∧ (busy [a] []).poisoned a.key a.n = false ∧ (busy [a] []).crew? 0 0 = some crew ∧ crew.g.exited = false
      ∧ 64 < 32 * crew.size := by decide

/-- MemoryEvents, second part: a load that may return the value of the present instant. -/
theorem witness_loadReturns :
    (busy [] [load]).load? 6 = some load ∧ (busy [] [load]).crew? 0 0 = some crew ∧ (busy [] [load]).cohort? 0 = some coh
      ∧ load.parts ≠ [] ∧ [12].length = load.parts.length
      ∧ (∀ p ∈ load.parts, p.remote = none ∧ (busy [] [load]).poisoned p.key p.n = false)
      ∧ (∀ z ∈ load.parts.zip [12], z.2 % 4 = 0 ∧ (busy [] [load]).readAllowed crew load coh z.1 z.2 = true) := by decide

/-- MemoryEvents, third part: an acquire after the instant, an instant to come, an earlier store; and a store behind a
store and behind a load. -/
theorem witness_coherence :
    (busy [] [{ load with bound := 2 }]).load? 6 = some { load with bound := 2 } ∧ (1 : Nat) < ({ load with bound := 2 } : Load).bound
      ∧ (busy [] [load]).fresh.stamp < 4
      ∧ (∃ e ∈ (busy [store false] [load]).mem.stores, e.uid = load.uid ∧ e.idx = load.idx ∧ e.id < load.id
        ∧ shares e.va e.n 0x3000 8 = true)
      ∧ (∃ x ∈ (busy [store false, { store false with id := 7 }] []).mem.stores, x.uid = 0 ∧ x.idx = 0 ∧ x.id < 7
        ∧ shares x.va x.n 0x3000 8 = true)
      ∧ (∃ x ∈ (busy [{ store false with id := 7 }] [load]).mem.loads, x.uid = 0 ∧ x.idx = 0 ∧ x.id < 7
        ∧ ∃ p ∈ x.parts, shares p.va p.n 0x3000 8 = true) := by decide

/-- GlobalAtomicOperations: the two widths. -/
theorem witness_atomicWidths : ((4 : Nat) = 4 ∨ (4 : Nat) = 8) ∧ ((8 : Nat) = 4 ∨ (8 : Nat) = 8) := by decide

/-! ### Records, barriers, counters, items -/

/-- A node with a local edge to itself and a remote edge to node 1; depth 3 at most. -/
def edgeNode : Node := { node with out := [0x8000, 0xC001], maxdepth := 3, alast := 5, cap := 4 }

/-- Its instance. -/
def edgeInst : Inst := { slot := 0, nodes := [edgeNode], l := { serial := 1 } }

/-- The machine with that instance. -/
def edgeMach (c : Crew) (h : Cohort) : State := { mach c h with insts := [edgeInst] }

/-- A crew whose s1 names node 0, s2 node 1 of device 7, s3 element 5, s4 node 9, s5 element 6. -/
def emitCrew : Crew := withS [(1, 0), (2, 0x80070001), (3, 5), (4, 9), (5, 6)]

/-- A record for element `e` of node 0. -/
def rec0 (e depth : Nat) : Record := ⟨0, e, depth, 0, 0, 0, false, 0, []⟩

/-- EmitAndChecks: a local target at its last element, a target of another device, an undeclared one, one beyond ALAST, and
a cohort at the depth limit. -/
theorem witness_emits :
    (edgeMach emitCrew coh).inst? 0 = some edgeInst ∧ emitCrew.w = {} ∧ emitCrew.fail = none
      ∧ (edgeMach emitCrew coh).release emitCrew coh 3 = .done ∧ (edgeMach emitCrew coh).release emitCrew coh 4 = .done
      ∧ bitOf (emitCrew.sr 1).toNat 31 = false ∧ emitCheck edgeInst 0 0 5 1 false = none
      ∧ ((edgeMach emitCrew coh).enqueue? 0 (rec0 5 1) true).isSome = true
      ∧ (edgeMach emitCrew coh).waitsAhead edgeInst 0 5 0 = false
      ∧ bitOf (emitCrew.sr 2).toNat 31 = true ∧ (emitCrew.sr 2).toNat / 2 ^ 16 % 2 ^ 10 ≠ (edgeMach emitCrew coh).devid
      ∧ emitCheck edgeInst 0 1 5 0 true = none ∧ (edgeMach emitCrew coh).fab.outbound = []
      ∧ (edgeInst.node 0).declared 9 false = false ∧ (edgeInst.node 0).declared 0 false = true
      ∧ (edgeInst.node 0).alast < (emitCrew.sr 5).toNat ∧ (edgeInst.node 0).maxdepth < ({ coh with recs := [⟨1, rec0 0 3, 0, none, 0⟩] } : Cohort).recDepth + 1
      ∧ edgeInst.backEmit 0 0 = true := by decide

/-- The clauses of EmitChecks are stated where the handler may run. -/
theorem witness_emitChecks : (edgeMach emitCrew coh).Issues emitCrew coh ∧ (edgeMach emitCrew coh).Handles emitCrew coh := by
  refine ⟨⟨rfl, rfl⟩, ?_, rfl, rfl, rfl⟩
  show edgeNode.handler ≠ 0
  decide

/-- QueueRules, first part: an element that is full, and one with room. -/
theorem witness_enqueue :
    let full : Inst := { edgeInst with queues := [{ node := 0, elem := 0, loam := [⟨1, rec0 0 0, 0, none, 0⟩, ⟨2, rec0 0 0, 0, none, 0⟩,
      ⟨3, rec0 0 0, 0, none, 0⟩, ⟨4, rec0 0 0, 0, none, 0⟩] }] }
    (full.node 0).cap ≤ (full.queue 0 0).count + ({ edgeMach crew coh with insts := [full] }).granted full 0 0
      ∧ ¬ (edgeInst.node 0).cap ≤ (edgeInst.queue 0 0).count + (edgeMach crew coh).granted edgeInst 0 0
      ∧ (edgeInst.queue 0 0).silt = []
      ∧ (edgeMach crew coh).bankCount 0 + (edgeMach crew coh).bankGranted 0 < 32768 := by decide

/-- EmitAndChecks, RECLD: eight words; a cohort of KIND 1. -/
theorem witness_recordLoads : 0 + 8 ≤ 8 ∧ crew.vOk 8 8 = true ∧ ((mach crew coh).nodeOf coh).kind ≠ 0 ∧ 184 + 8 ≤ 192 := by decide

/-- A cohort of two crews, crew 1 standing at barrier 0. -/
def barCoh : Cohort := { coh with bars := [⟨0, [1], 255⟩] }

/-- BarriersAndEdges, first part: the last arrival, one that must wait, and a BAR.wt of a crew that has not arrived and of one that has. -/
theorem witness_barriers :
    badArrival crew coh 0 (stageMask 0) = false ∧ badArrival crew barCoh 0 (stageMask 0) = false
      ∧ (∀ j ∈ countedBy ((twoCrews crew).crewsOf 0) (stageMask 0), j = 0 ∨ (barCoh.arr 0).contains j = true)
      ∧ ¬ (∀ j ∈ countedBy ((twoCrews crew).crewsOf 0) (stageMask 0), j = 0 ∨ ((coh.arr 0).contains j = true
        ∨ ∃ d ∈ (twoCrews crew).crewsOf 0, d.idx = j ∧ d.g.exited = true))
      ∧ (∃ d ∈ (twoCrews crew).crewsOf 0, d.idx ≠ crew.idx ∧ d.g.exited = false ∧ d.w.kind = .none)
      ∧ (barCoh.arr 0).contains 0 = false
      ∧ ({ coh with bars := [⟨0, [0], 255⟩] } : Cohort).arr 0 = [0] := by decide

/-- BarriersAndEdges, second part: a cohort not started early, and one whose predecessor, node 0 itself, is live. -/
theorem witness_edges :
    coh.early = false ∧ (∀ l ∈ (edgeMach crew coh).mem.loads, l.uid ≠ 0 ∨ l.idx ≠ 0)
      ∧ ({ edgeMach crew { coh with early := true } with insts := [{ edgeInst with nodes := [{ edgeNode with pred := [0x8000] }] }] }).predsDone
          { edgeInst with nodes := [{ edgeNode with pred := [0x8000] }] } 0 = false
      ∧ (edgeMach crew coh).release crew coh 3 = .done := by decide

/-- An instance with counter 0 at 2, and one with it pending. -/
def ctrInst (remaining : Int) (pending : Bool) : Inst :=
  { edgeInst with ctrs := [{ n := 0, remaining := remaining, pending := pending, r := rec0 5 1 }] }

/-- DependenceCounters: arming with a count and with none, a decrement that leaves some, one that fires, one to a pending
counter. -/
theorem witness_counters :
    let c := withS [(1, 0x500000), (2, 1)]
    let s (i : Inst) : State := { edgeMach c coh with insts := [i] }
    (c.sr 1).toNat % 256 = 0 ∧ (c.sr 1).toNat / 2 ^ 20 % 2 ^ 16 = 5 ∧ (c.sr 1).toNat / 2 ^ 36 % 8 = 0
      ∧ (edgeInst.node 0).declared 0 false = true ∧ 5 ≤ (edgeInst.node 0).alast ∧ 1 ≤ (edgeInst.node 0).maxdepth
      ∧ (∀ x ∈ edgeInst.ctrs, x.n ≠ 0) ∧ 0 < (c.sr 2).toNat % 2 ^ 32 ∧ (c.sr 3).toNat % 2 ^ 32 = 0
      ∧ (s edgeInst).waitsAhead edgeInst 0 5 0 = false ∧ ((s edgeInst).enqueue? 0 (rec0 5 1) true).isSome = true
      ∧ ((ctrInst 2 false).ctrs.find? (fun y => y.n == 0)).map (·.pending) = some false ∧ (0 : Int) < 2 - 1
      ∧ (1 : Int) - 1 ≤ 0 ∧ (s (ctrInst 1 false)).waitsAhead (ctrInst 1 false) 0 5 0 = false
      ∧ ((s (ctrInst 1 false)).enqueue? 0 (rec0 5 1) true).isSome = true
      ∧ ((ctrInst 1 true).ctrs.find? (fun y => y.n == 0)).map (·.pending) = some true := by decide

/-- DependenceCounters: seven payload words, a payload past s191, a node that is not declared, an element beyond ALAST, a
depth beyond MAXDEPTH, a counter that is armed. -/
theorem witness_counterChecks :
    let c := withS [(1, 0x7000000000), (2, 0x500100), (3, 0x600000), (4, 0x500000)]
    let deep : Inst := { edgeInst with nodes := [{ edgeNode with maxdepth := 0 }] }
    (edgeMach c coh).Issues c coh ∧ (edgeMach c coh).Handles c coh ∧ (edgeMach c coh).inst? coh.inst = some edgeInst
      ∧ 6 < (c.sr 1).toNat / 2 ^ 36 % 8 ∧ 192 < 191 + 2 ∧ (edgeInst.node 0).declared ((c.sr 2).toNat / 2 ^ 8 % 2 ^ 12) false = false
      ∧ (edgeInst.node 0).alast < (c.sr 3).toNat / 2 ^ 20 % 2 ^ 16
      ∧ (deep.node 0).maxdepth < coh.recDepth + (if deep.backEmit 0 0 then 1 else 0)
      ∧ ∃ x ∈ (ctrInst 2 false).ctrs, x.n = (c.sr 4).toNat % 256 := by
  unfold State.Issues State.Handles; decide

/-- A cohort whose scratchpad holds a RINGDEF of ring 0 at 0, a TCLEAR of tile 1 at 64 with its footprint at 128, and a COPY
of 8 bytes from 512 to 520 at 256 with its footprint at 320. -/
def itemCoh : Cohort := { coh with sp := { w := [(0, 3), (8, 4), (11, 1), (13, 128), (24, 3), (25, 2),
  (32, 0x30), (33, 512), (34, 520), (35, 8), (37, 320), (40, 0x800000001), (41, 512), (48, 0x800000001), (49, 520)] } }

/-- EngineQueues: a record and a card that obey their rules, a record that does not, a free scheduler, a full one. -/
theorem witness_items :
    (readItem crew itemCoh 64 0 true).isSome = true ∧ (readItem crew itemCoh 64 64 true).isSome = true
      ∧ (readItem crew itemCoh 64 256 false).isSome = true ∧ readItem crew itemCoh 64 512 true = none
      ∧ (0 : Nat) % 64 = 0 ∧ 65472 + 64 ≤ 1024 * itemCoh.sh.kib ∧ crew.fail = none
      ∧ (mach crew itemCoh).release crew itemCoh 3 = .done
      ∧ ((mach crew itemCoh).eng.items.filter (fun x => x.core == 0)).length < 64
      ∧ 64 ≤ ((List.replicate 64 ({ id := 0, core := 0, uid := 0, idx := 0, pc := 0, task := true, words := [] } : Item)).filter
          (fun x => x.core == 0)).length
      ∧ { itemCoh with space := some 3 }.space = some 3 := by decide

/-- The items of `itemCoh`'s records. -/
def item (off : Nat) (task : Bool) : Item :=
  (readItem crew itemCoh 64 off task).getD { id := 0, core := 0, uid := 0, idx := 0, pc := 0, task := task, words := [] }

/-- The machine with items. -/
def itemMach (l : List Item) : State := let s := mach crew itemCoh; { s with eng := { s.eng with items := l } }

/-- TasksAndMatrixSteps, first part: a TCLEAR and a RINGDEF that are first, and a TCLEAR behind another of its tile. -/
theorem witness_tasks :
    (itemMach [item 64 true]).item? 0 0 = some (item 64 true) ∧ (item 64 true).task = true ∧ (item 64 true).sub = 0
      ∧ (item 64 true).done = false ∧ (item 64 true).fail = none ∧ (item 64 true).wait = none ∧ (item 64 true).remote = none
      ∧ (item 64 true).op = 4 ∧ (item 0 true).op = 3
      ∧ (∃ x ∈ (itemMach [item 64 true, { item 64 true with id := 1 }]).eng.items, x.core = 0 ∧ x.id < 1
        ∧ ∃ a ∈ x.fp, ∃ b ∈ (item 64 true).fp, (a.write = true ∨ b.write = true) ∧ a.overlaps true b = true) := by decide

/-- An MMA.INT of one step on ring 0, whose slot is at 1024 and whose tag, at 2048, is full; tile 1. -/
def mmaItem : Item :=
  { id := 0, core := 0, uid := 0, idx := 0, pc := 0, task := true, sub := 1, ring := some ⟨1, 1, 1024, 2048⟩
    words := [0x2002, 0, 0, 1, 0, 0, 0, 0] }

/-- Its machine. -/
def mmaMach : State :=
  let s := mach crew { coh with sp := { full := [(256, true)] } }
  { s with eng := { s.eng with items := [mmaItem], wbOwner := [(0, 1)] } }

/-- TasksAndMatrixSteps, second part. -/
theorem witness_matrixStep :
    mmaMach.item? 0 0 = some mmaItem ∧ mmaItem.op = 2 ∧ mmaMach.itemGoes mmaItem = true
      ∧ mmaItem.tagWait { coh with sp := { full := [(256, true)] } } = false
      ∧ Ty.ofCode (mmaItem.fld 0 7 4) = .s8 ∧ Ty.ofCode (mmaItem.fld 0 11 8) = .s8 ∧ mmaItem.sparse = false
      ∧ SMap.get 0 mmaMach.eng.wbOwner 0 = coh.serial ∧ (0 + 1024 : Nat) ≤ 4096 := by decide

/-- Jobs: the COPY before it reads, with its unit at hand, and before it writes to scratchpad, to the weight buffer, and to
memory. -/
theorem witness_jobs :
    let it := item 256 false
    let w : Item := { it with sub := 1, buf := List.replicate 8 1 }
    let fill : Item := { w with words := it.words.set 0 0x6024 |>.set 2 0 }
    let far : Item := { w with words := it.words.set 0 0x10 |>.set 2 0x3000 }
    (itemMach [it]).item? 0 0 = some it ∧ it.task = false ∧ (itemMach [it]).itemGoes it = true ∧ it.total ≠ 0
      ∧ it.op = 0 ∧ it.sub < it.units
      ∧ w.ring = none ∧ min 8 (w.total - w.pos) ≤ w.buf.length ∧ w.selfOverlap = false ∧ w.dstSp = true ∧ it.srcSp = true
      ∧ fill.op = 4 ∧ fill.total ≠ 0 ∧ far.op = 0 ∧ far.dstSp = false ∧ far.dstAt far.pos = 0x3000
      ∧ (memMach crew itemCoh).route 0x3000 = .own 0
      ∧ (memMach crew itemCoh).xlate 0 0x3000 .store false = some (.home 0, false) := by decide

/-- Jobs: the unit that the COPY reads. -/
theorem witness_jobUnit :
    (itemMach [item 256 false]).unitBytes (item 256 false) itemCoh 0 none = .ok [0, 0, 0, 0, 0, 0, 0, 0] := rfl

/-- ItemEndings: an item that is done, with its counter, one that failed, and a query of a tile space. -/
theorem witness_itemEndings :
    let it : Item := { item 64 true with done := true }
    let dc : Item := { it with words := it.words.set 7 0x100 }
    it.done = true ∧ it.fail = none ∧ it.remote = none ∧ it.fld 7 8 8 = 0 ∧ it.op ≠ 3
      ∧ dc.fld 7 8 8 = 1 ∧ dc.fld 6 20 20 = 0 ∧ dc.fld 7 7 0 = 0
      ∧ (1 : Int) < 2 ∧ (ctrInst 2 false).l.serial = itemCoh.serial
      ∧ ({ it with fail := some (5, 0x40, 0) } : Item).fail = some (5, 0x40, 0)
      ∧ (mach crew itemCoh).crew? 0 0 = some crew ∧ itemCoh.ev = .placed ∧ itemCoh.halt = none ∧ crew.g.exited = false
      ∧ (let w : Wdq := ⟨9, 0, 0, 3, 64⟩
         let p : Space := { id := 3, gx := 2, gy := 1, gz := 1, left := 1 }
         w.uid = it.uid ∧ w.space = p.id) := by decide

/-! ### Scheduling -/

/-- A record of element 0 of node 0, in a queue. -/
def qrec (id : Nat) : QRec := ⟨id, rec0 0 1, 0, none, 0⟩

/-- An instance with one record queued at (0, 0). -/
def queued : Inst := { edgeInst with queues := [{ node := 0, elem := 0, loam := [qrec 1] }] }

/-- A device with that instance alone, and only core 0 on die 0. -/
def placeMach : State :=
  { State.reset with
    insts := [queued]
    sched := { State.reset.sched with disabled := (List.range 96).drop 1 } }

/-- PlacementAndOffers, first part: an offer that fits core 0. -/
theorem witness_placement :
    placeMach.sched.resv = [] ∧ placeMach.sched.asks = [] ∧ placeMach.sched.claims = [] ∧ placeMach.fab.asks = []
      ∧ placeMach.cohorts = [] ∧ placeMach.crews = [] ∧ queued.busyElems 0 = [(0, 0)] ∧ queued.grids = []
      ∧ queued.a.lpSize = 0 ∧ (queued.queue 0 0).back = [] ∧ (queued.queue 0 0).loam = [qrec 1]
      ∧ placeMach.recPoisoned queued (qrec 1) = false ∧ (queued.node 0).kind = 1 ∧ placeMach.offers queued 0 0 = true
      ∧ placeMach.target 0 (some (0, 0, 0)) none (queued.node 0).shape = some 0 ∧ 2 ≤ placeMach.clk.rounds.length := by
  decide

/-- PlacementAndOffers, second part: 64 and 63 rounds passed; LINGER over and not over; 4,096 rounds walked, and fewer. -/
theorem witness_offers :
    let a : Inst := { queued with nodes := [{ edgeNode with linger := 10 }], passed := [(0, 64)], offers := [⟨0, 0, 4096, 0⟩] }
    let s : State := { placeMach with insts := [a], clk := { State.reset.clk with cycle := 10 } }
    s.inst? 0 = some a ∧ (a.node 0).linger ≠ 0 ∧ 0 < (a.queue 0 0).count ∧ (a.queue 0 0).last + (a.node 0).linger ≤ s.clk.cycle
      ∧ placeMach.clk.cycle < (a.queue 0 0).last + (a.node 0).linger
      ∧ (∃ o ∈ a.offers, o.node = 0 ∧ o.elem = 0 ∧ 4096 ≤ o.walked) ∧ (∀ r ∈ s.sched.resv, r.key ≠ (0, 0, 0)) ∧ s.sched.asks = []
      ∧ (s.sched.resv.filter (fun r => dieOf r.core == queueDie 0 0)).length < 8
      ∧ s.resvTarget (queueDie 0 0) (a.node 0).shape = some 0
      ∧ ∀ o ∈ queued.offers, o.node = 0 → o.elem = 0 → o.walked < 4096 := by decide

/-- An instance of priority 1 whose offer has waited since time 0, and one of priority 0 with a save slot. -/
def claimant : Inst := { queued with slot := 1, l := { serial := 2, prio := 1 }, offers := [⟨0, 0, 1, 0⟩] }

/-- The victim's instance. -/
def victim : Inst := { edgeInst with a := { slots := 1, slotSize := 65536, saveVa := 0x100000 } }

/-- Core 0 held by a cohort at a blocking point, 20 µs later. -/
def evictMach (ev : Ev) : State :=
  { placeMach with
    insts := [victim, claimant], cohorts := [{ coh with ev := ev }], crews := [{ crew with w := { kind := .yield } }]
    clk := { State.reset.clk with ns := 20000 } }

/-- EvictionAndLimits, first part: a claim, and a save whose waits are over. -/
theorem witness_eviction :
    (evictMach .placed).cohort? 0 = some coh ∧ (evictMach .placed).inst? 0 = some victim ∧ (evictMach .placed).sched.claims = []
      ∧ ((evictMach .placed).candidates 0).map (fun c => (c.uid, c.slot, c.node, c.elem)) = [(none, 1, 0, 0)]
      ∧ (evictMach .placed).inst? 1 = some claimant ∧ (∃ o ∈ claimant.offers, o.node = 0 ∧ o.elem = 0 ∧ o.since + 20000 ≤ 20000)
      ∧ claimant.a.lpSize = 0
      ∧ (evictMach .placed).evictChoice 0 (1, 0, 0) (claimant.node 0).shape ((evictMach .placed).np claimant 0) = some (0, [0])
      ∧ (evictMach .placed).eligible coh ((evictMach .placed).np claimant 0) = true
      ∧ (∃ c ∈ (evictMach .saving).crewsOf 0, c.g.exited = false)
      ∧ (∀ c ∈ (evictMach .saving).crewsOf 0, c.fail = none ∧ c.pend = [])
      ∧ (evictMach .saving).saveReady { coh with ev := .saving } = true ∧ coh.lp = none ∧ victim.freeSlot = some 0 := by decide

/-- EvictionAndLimits, second part: before and at RUNLIMIT, a crew told to stop and one not. -/
theorem witness_limits :
    (mach crew coh).cohort? 0 = some coh ∧ coh.run < 1024 * ((mach crew coh).nodeOf coh).runlimit
      ∧ 1024 * ((mach crew { coh with run := 1024 }).nodeOf { coh with run := 1024 }).runlimit ≤ 1024
      ∧ ((mach crew coh).crewsOf 0).find? (fun c => !c.g.exited) = some crew ∧ (mach crew coh).crew? 0 0 = some crew
      ∧ ((mach crew coh).nodeOf coh).handler ≠ 0 ∧ crew.g.hnd = false ∧ crew.g.ccr.getLsbD 13 = false
      ∧ coh.expired = false ∧ crew.g.stopping = false ∧ crew.g.moving = false
      ∧ ({ crew with g := { stopping := true } } : Crew).g.stopping = true := by decide

/-- InstanceEnds: an instance that may complete, one with a queued record, one stuck for 10 µs. -/
theorem witness_instanceEnds :
    let a : Inst := { edgeInst with l := { serial := 1, compVa := 0x3000 } }
    let s : State := { memMach crew coh with insts := [a], cohorts := [], crews := [] }
    let w : Crew := { crew with w := { kind := .sp 0 true } }
    let d : Inst := { edgeInst with stuck := some 0 }
    let t : State := { mach w coh with insts := [d], clk := { State.reset.clk with ns := 10000 } }
    s.mayComplete a = true ∧ s.instStored a = true ∧ s.devWord (.completion a.l.serial) a.l.ctx a.l.compVa .store = .ok 0x3000
      ∧ (∃ q ∈ queued.queues, q.count ≠ 0) ∧ d.stuck = some 0 ∧ 0 + 10000 ≤ t.clk.ns ∧ t.stuckNow d = true
      ∧ edgeInst.stuck = none := by decide

/-- A queue of 64 records. -/
def longQueue : Queue := { node := 0, elem := 0, loam := (List.range 64).map qrec }

/-- QueueRules, second part: a blocked EMIT and a pending counter with room. -/
theorem witness_wakes :
    let w : Crew := { crew with w := { kind := .emit 0 5, emits := [(0, 1024, rec0 5 1)] } }
    (edgeMach w coh).waitsAhead edgeInst 0 5 w.w.seq = false ∧ ((edgeMach w coh).enqueue? 0 (rec0 5 1) true).isSome = true
      ∧ (ctrInst 0 true).ctrs.find? (fun y => y.n == 0) = some { n := 0, remaining := 0, pending := true, r := rec0 5 1 }
      ∧ ({ edgeMach crew coh with insts := [ctrInst 0 true] }).waitsAhead (ctrInst 0 true) 0 5 0 = false
      ∧ (({ edgeMach crew coh with insts := [ctrInst 0 true] }).enqueue? 0 (rec0 5 1) true).isSome = true := by decide

/-- QueueRules, third part: a bank at its mark; a Silt block behind an empty Loam part. -/
theorem witness_silt :
    bankOf 0 0 = 12 * 0 + 0 ∧ (edgeMach crew coh).bankCount 0 ≤ 28672
      ∧ ({ edgeInst with a := { siltBlocks := 1 } } : Inst).freeBlock = some 0 ∧ longQueue.loam ≠ []
      ∧ (({ edgeInst with queues := [{ node := 0, elem := 0, silt := [[⟨1, rec0 0 1, 0, some 0, 0⟩]] }] } : Inst).queue 0 0).silt
          = [[⟨1, rec0 0 1, 0, some 0, 0⟩]]
      ∧ ((edgeInst.queue 0 0).loam.length < if (edgeInst.node 0).kind = 0 then 32 * (edgeInst.node 0).ncrew else 1)
      ∧ (edgeMach crew coh).fab.grants = [] ∧ (∀ x ∈ edgeInst.stored, ∀ b, x.blk = some b → b < edgeInst.a.siltBlocks) := by
  refine ⟨by decide, by decide, by decide, by decide, by decide, by decide, by decide, ?_⟩
  intro x hx
  exact absurd hx (by decide +revert)

/-- QueueRules, third part: a record in a Silt block that is sound, and one that is poisoned. -/
theorem witness_refill :
    let a : Inst := { edgeInst with a := { siltBlocks := 1 }, l := { serial := 1, siltVa := 0x8000 } }
    let x : QRec := ⟨1, rec0 0 1, 0, some 0, 0⟩
    (edgeMach crew coh).recPoisoned a x = false
      ∧ ({ edgeMach crew coh with mem := { (edgeMach crew coh).mem with poison := [0x200] } }).recPoisoned a x = true := by
  decide +kernel

/-- The records of a queue of bank 0 are in bank 0. -/
theorem bankCount_replicate (n : Nat) :
    ({ edgeMach crew coh with insts := [{ edgeInst with queues :=
      [{ node := 0, elem := 0, loam := List.replicate n (qrec 1) }] }] }).bankCount 0 = n := by
  have h : (qrec 1).blk = none ∧ bankOf (qrec 1).r.node (qrec 1).r.aidx = 0 := by decide
  simp [State.bankCount, Inst.stored, Queue.all, edgeInst, h]

/-- QueueRules, third part: more than 28,672 records in bank 0. -/
theorem witness_bankFull :
    28672 < ({ edgeMach crew coh with insts := [{ edgeInst with queues :=
      [{ node := 0, elem := 0, loam := List.replicate 28673 (qrec 1) }] }] }).bankCount 0 := by
  rw [bankCount_replicate]; decide

/-! ### Fabric, translation, firmware and queues -/

/-- An instance that takes records of other devices. -/
def ingress : Inst := { edgeInst with nodes := [{ edgeNode with ingress := true }], l := { serial := 1, tag := 7 } }

/-- RecordsAndReservations, first part: a record that came before, one of an unknown tag, one for a node that is not there, one
with room, one without. -/
theorem witness_arrivals :
    let s : State := { edgeMach crew coh with insts := [ingress] }
    let seen : State := { s with fab := { s.fab with seen := [(3, 0, 9)] } }
    let none_ : State := { s with insts := [{ ingress with nodes := [{ edgeNode with ingress := true, cap := 0 }] }] }
    (3, 0, 9) ∈ seen.fab.seen ∧ (3, 0, 9) ∉ s.fab.seen ∧ (∀ a ∈ s.insts, a.l.tag ≠ 8) ∧ s.tagged 7 = some ingress
      ∧ ingress.nodes.length ≤ 1 ∧ ¬ (ingress.nodes.length ≤ 0 ∨ (ingress.node 0).ingress = false ∨ (ingress.node 0).alast < 5
        ∨ (ingress.node 0).maxdepth < 1) ∧ (3, 7, 0, 5) ∉ s.fab.dropped
      ∧ (s.enqueue? 0 { rec0 5 1 with remote := true } true).isSome = true
      ∧ none_.enqueue? 0 { rec0 5 1 with remote := true } true = none := by decide

/-- A record on its way to device 5. -/
def outRec (held : Bool) : OutRec := { id := 4, sn := 2, die := 0, dev := 5, tag := 7, inst := 0, serial := 1, r := rec0 5 1, held := held }

/-- RecordsAndReservations, second part: one record on its way, of this instance, held or not; places that are free and not;
a grant that is over and one that is not. -/
theorem witness_reservations :
    let s : State := { edgeMach crew coh with insts := [ingress], clk := { State.reset.clk with ns := 5 } }
    let none_ : Inst := { ingress with nodes := [{ edgeNode with cap := 0 }] }
    let g (t : Nat) : Grant := { id := 1, src := 3, tag := 7, node := 0, elem := 0, n := 1, until_ := t }
    ingress.l.serial = (outRec false).serial ∧ (outRec false).held = false ∧ (outRec true).held = true ∧ (0 : Nat) < 1
      ∧ s.fab.asks = [] ∧ s.tagged 7 = some ingress ∧ 0 < min 1 (s.spare ingress 0 5).1
      ∧ ({ s with insts := [none_] }).tagged 7 = some none_ ∧ (({ s with insts := [none_] }).spare none_ 0 5).1 = 0
      ∧ [g 5].find? (fun x => x.id == 1) = some (g 5) ∧ (g 5).out = false ∧ (g 5).until_ ≤ s.clk.ns
      ∧ s.clk.ns < (g 6).until_ := by decide

/-- PortsAndMailboxes: a port that narrows and one that fails; a device that can be reached; a mailbox with room and a full
one. -/
theorem witness_ports :
    let s : State := { mach crew coh with fab := { State.reset.fab with routes := [(9, 1)] } }
    State.reset.fab.ports.length ≠ 0 ∧ (9 : Nat) ≠ s.devid ∧ s.reachable 9 = true ∧ 9 ∉ s.fab.admitted
      ∧ (SMap.get [] s.host.mail 0).length < 16 ∧ 16 ≤ (List.replicate 16 ([] : List Word)).length ∧ [0, 0, 0, (0 : Word)].length = 4
      ∧ ({ lanes := [], width := 0 } : Port).width ≤ 4
      ∧ (let p : Port := { lanes := [3], width := 1 }
         min p.width ((p.lanes.filter (fun l => l != 3)).length) = 0 ∧ p.width ≠ 0) := by decide

/-- An entry of the merge table for page 3 of context 0. -/
def merge : Merge := { die := 0, ctx := 0, gen := 0, page := 3, kind := 0 }

/-- PageAnswers: an entry, none, a page of the host, a context, a crew that waits for an outcome. -/
theorem witness_pageAnswers :
    let s : State := { memMach crew coh with mmu := { (memMach crew coh).mmu with merge := [merge] } }
    let w : Crew := { crew with x := { xwait := [(0, .load)] } }
    (∀ e ∈ s.mem.log, e.page ≠ 3) ∧ s.mmu.served = [] ∧ s.host.faultQ = [] ∧ (∀ e ∈ s.mmu.merge, e.open_ = true)
      ∧ (∃ e ∈ s.mmu.merge, e.die = 0 ∧ e.page = 3 ∧ e.ctx = 0 ∧ e.gen = s.genOf 0)
      ∧ (∀ e ∈ s.mmu.merge, ¬ (e.die = 1 ∧ e.page = 3 ∧ e.ctx = 0 ∧ e.gen = 0))
      ∧ (2 ^ 37 : Nat) / 2 ^ 36 % 4 = 2 ∧ s.ctx? 0 = some { n := 0, root0 := 0x10000 }
      ∧ ({ n := 0, root0 := 0x10000 } : Ctx).rootH = 0 ∧ s.mmu.tlb = [] ∧ (2 ^ 37 : Nat) < 2 ^ 48
      ∧ (memMach w coh).crew? 0 0 = some w ∧ pageDev 0 = s.devid
      ∧ (memMach w coh).xlate 0 (pageVa 0) .load false = some (.home 0, false)
      ∧ ({ s.mmu with pris := [(0, 0, 3)] } : Mmu).pris.find? (fun p => p.1 == 0 && p.2.2 == 3) = some (0, 0, 3)
      ∧ (∀ p ∈ s.mmu.pris, p.1 ≠ 0 ∨ p.2.2 ≠ 3)
      ∧ ({ memMach w coh with mem := { (memMach w coh).mem with mem := putBytes (memMach w coh).mem.mem 0x20000 [0x45] } }).xlate
          0 (pageVa 0) .load false = some (.req 0, false) := by decide

/-- A context whose first GiB is mapped copy on write. -/
def cowMach : State :=
  let s := memMach crew coh
  { s with mmu := { s.mmu with cows := [{ die := 0, ctx := 0, page := 0, old := 0, new_ := 0x40000 }] } }

/-- CopiesAndMemoryErrors: a page that an access uses, one that none uses, and a copy that is due. -/
theorem witness_copies :
    (cowMach.pageBusy 0 0 = false) ∧ ({ busy [store false] [] with cur := (0, 0) }).pageBusy 0 0 = true
      ∧ cowMach.mmu.cows = [{ die := 0, ctx := 0, page := 0, old := 0, new_ := 0x40000 }]
      ∧ cowMach.ctx? 0 = some { n := 0, root0 := 0x10000 } ∧ (∀ e ∈ cowMach.mem.log, e.page ≠ 0) ∧ cowMach.mmu.served = []
      ∧ (∀ e ∈ cowMach.mmu.merge, e.open_ = true) ∧ Memory.wf cowMach.mem.mem = true
      ∧ tableSpace (vaDie (pageVa 0)) * 2 ^ 56 + pteAddr cowMach 0 (vaOff (pageVa 0)) levels 0x10000 + 8 ≤ 0x40000
      ∧ (0x40000 : Nat) < 2 ^ 56 ∧ 0x40000 % 2 ^ 16 = 0 ∧ 64 ≤ (List.replicate 64 (0 : Byte)).length := by decide

/-- RemoteTraffic, first part: a page that is allowed and one that is not. -/
theorem witness_requests :
    (memMach crew coh).route 0x3000 = .own 0 ∧ (memMach crew coh).ctx? 0 = some { n := 0, root0 := 0x10000 }
      ∧ (memMach crew coh).xlate 0 0x3000 .load false = some (.home 0, false)
      ∧ (memMach crew coh).xlate 0 0x3000 .store false = some (.home 0, false)
      ∧ (memMach crew coh).xlate 0 0x3000 .atomic false = some (.home 0, false)
      ∧ (memMach crew coh).poisoned 0x3000 8 = false ∧ (0 + 0x3000) / 2 ^ 56 ≠ 2 ∧ (2 * 2 ^ 56 + 0x3000) / 2 ^ 56 = 2
      ∧ (State.reset.withFetchWord 32 0).xlate 0 0x3000 .store false = some (.fault 5, false) := by decide

/-- A request of crew 0 to device 5, made at time 0. -/
def remote (who : Asker) : Remote := { rid := 9, who := who, va := 0x14000000003000, n := 8 }

/-- RemoteTraffic, second part: a load, a store and a WAITA of device 5, before and after their times. -/
theorem witness_remote :
    let l : Load := { load with parts := [{ lane := 0, va := 0x14000000003000, n := 8, key := 0, dst := .v 64, remote := some 9 }] }
    let e : Store := { store false with va := 0x14000000003000, remote := some 9 }
    (remote (.part 6 0 (.v 64))).rid = 9 ∧ l.parts.map (·.remote) = [some 9] ∧ 64 < 32 * crew.size ∧ l.xto = false
      ∧ e.remote = some 9 ∧ e.dst = .none ∧ e.xto = false ∧ crew.w = {} ∧ crew.g.exited = false
      ∧ 0 + 1000 * State.reset.host.fw.timeout ≤ 1000 * State.reset.host.fw.timeout
      ∧ ¬ 0 + 1000 * State.reset.host.fw.timeout ≤ State.reset.clk.ns ∧ (8 : Nat) ≠ 9
      ∧ (remote (.waita 0 0 false)).late = false ∧ (remote (.waita 0 0 false)).key = none ∧ 0 + 2000 ≤ 2000 ∧ State.reset.clk.ns < 0 + 2000
      ∧ (memMach crew coh).xlateNow 0 0x3000 .load = .home 0 := by decide

/-- A SHINV of the crew's cohort for tensor 1, and one of device 5. -/
def shinv (root : Bool) (wait : List (Nat × Nat)) : Shinv :=
  { id := 3, die := 0, tensor := 1, ctx := 0, root := if root then some (0, 64, 7) else none
    parent := if root then none else some (5, 2), wait := wait, local_ := !root }

/-- ShardInvalidation: a release that is done and room for the operation; a root and a relay that end; accesses that hold
it; a child silent for 100 µs and one that is not. -/
theorem witness_shinv :
    crew.h.w.marl = [] ∧ (∀ r ∈ (mach crew coh).mem.remote, r.who ≠ .marl 0 0) ∧ (withS [(1, 64)] |>.sr 1).toNat % 8 = 0 ∧ 64 + 8 ≤ 1024 * coh.sh.kib ∧ (mach crew coh).release crew coh 4 = .done
      ∧ ((mach crew coh).mmu.shinvs.filter (fun v => v.root.isSome && v.die == 0)).length < 16
      ∧ (shinv true []).wait = [] ∧ (mach crew coh).tensorBusy (shinv true []) = false ∧ coh.ev = .placed
      ∧ (∃ c ∈ (mach crew coh).crewsOf 0, c.g.exited = false)
      ∧ (shinv false [(5, 0)]).root = none ∧ (shinv false [(5, 0)]).local_ = true ∧ (5 : Nat) ≠ (mach crew coh).devid
      ∧ (busy [{ store false with tensor := some 1 }] []).tensorBusy (shinv true []) = true
      ∧ 0 + 100000 ≤ 100000 ∧ State.reset.clk.ns < 0 + 100000 ∧ [(6 : Nat)] ≠ [] := by decide

/-- FirmwareAndAttestation: the lock clear and set, a write at the end of the window, a verification in progress. -/
theorem witness_firmware :
    State.reset.host.fw.lock = false ∧ State.reset.host.fw.stat = 0 ∧ ({ State.reset.host.fw with lock := true } : Fw).lock = true
      ∧ 2 ^ 28 - 1 + [(0 : Byte)].length ≤ 2 ^ 28 ∧ (0x1004 : Nat) < 0x10000000 ∧ (0x1004 : Nat) ≠ 0x1010
      ∧ ({ State.reset.host.fw with stat := 1, len := 2 ^ 28 } : Fw).stat = 1 ∧ (1 : Nat) ≤ 2 ^ 28
      ∧ State.reset.host.repair.whole = true := by decide

/-- A queue at 0x7000 of die 0 whose ring, of one packet at 0x5000, holds these words, with an image of one node at 0x4000. -/
def queueMach (packet : List (Nat × Nat)) : State :=
  let s := memMach crew coh
  let put (m : List Host.Cell) (e : Nat × Nat) : List Host.Cell := putBytes m e.1 (leBytes 8 e.2)
  { s with
    mem := { s.mem with mem := (packet.map (fun (e : Nat × Nat) => (0x5000 + 8 * e.1, e.2)) ++ [(0x7008, 0x5000), (0x7018, 1),
      (0x4000, 0x13149474C), (0x4008, 0x80), (0x4080, 0x1000), (0x4090, 1), (0x4098, 0x0101010101010100), (0x40A0, 1), (0x40A8, 1),
      (0x40B0, 1), (0x40B8, 1)]).foldl put s.mem.mem }
    host := { s.host with fw := { s.host.fw with boot := 8 }, visit := some ⟨7, 0x7000, 8⟩, heads := [0, 0, 0, 0, 0, 0, 0, 0x7000] } }

/-- These words were read. -/
def got (r : QRes (List Word)) (w : List Word) : Bool :=
  match r with
  | .ok l => l == w
  | _ => false

/-- What AtPacket asks of the queue but its words. -/
theorem queueMach_at (p : List (Nat × Nat)) (w : List Word)
    (h : (queueMach p).qWork 0x7000 = true ∧ (queueMach p).qStack 0x7000 = []
      ∧ got ((queueMach p).qReads 0x7000 ((queueMach p).packetVa 0x7000) 16) w = true
      ∧ malformedBy w 0 = none) : (queueMach p).qWork 0x7000 = true ∧ (queueMach p).walkerOn = true
      ∧ (∃ v, (queueMach p).host.visit = some v ∧ v.qsb = 0x7000 ∧ 0 < v.left) ∧ (queueMach p).qStack 0x7000 = []
      ∧ (queueMach p).qReads 0x7000 ((queueMach p).packetVa 0x7000) 16 = .ok w ∧ malformedBy w 0 = none := by
  obtain ⟨h1, h2, h3, h4⟩ := h
  refine ⟨h1, rfl, ⟨_, rfl, rfl, by decide⟩, h2, ?_, h4⟩
  revert h3
  unfold got
  cases (queueMach p).qReads 0x7000 ((queueMach p).packetVa 0x7000) 16 <;> simp

/-- Sixteen words of a packet. -/
def packet (l : List (Nat × Nat)) : List Word := (List.range 16).map (fun i => BitVec.ofNat 64 (SMap.get 0 l i))

/-- WalkersAndPackets: a NOP. -/
theorem witness_packetNop : (queueMach []).qReads 0x7000 ((queueMach []).packetVa 0x7000) 16 = .ok (packet []) :=
  (queueMach_at [] (packet []) (by decide)).2.2.2.2.1

/-- WalkersAndPackets: WRITE_VALUE without and with its bit 8, its word at hand and clear of the queue, with a live instance
of the queue and without. -/
theorem witness_packetWrite :
    let p (b : Nat) : List (Nat × Nat) := [(0, 2 + 256 * b), (1, 0x6000), (2, 5)]
    (queueMach (p 0)).qReads 0x7000 ((queueMach (p 0)).packetVa 0x7000) 16 = .ok (packet (p 0))
      ∧ (queueMach (p 1)).qReads 0x7000 ((queueMach (p 1)).packetVa 0x7000) 16 = .ok (packet (p 1))
      ∧ (queueMach (p 0)).devWord (.queue 0x7000) ((queueMach (p 0)).qsbCtx 0x7000) 0x6000 .store = .ok 0x6000
      ∧ (0x6000 + 8 ≤ rawKey 0x7000 ∨ rawKey 0x7000 + 64 ≤ 0x6000)
      ∧ (∀ a ∈ (queueMach (p 1)).insts, a.l.qsb ≠ 0x7000)
      ∧ ({ edgeInst with l := { qsb := 0x7000 } } : Inst).l.qsb = 0x7000 :=
  ⟨(queueMach_at _ _ (by decide +kernel)).2.2.2.2.1, (queueMach_at _ _ (by decide +kernel)).2.2.2.2.1, by decide +kernel, by decide +kernel, by decide +kernel, rfl⟩

/-- WalkersAndPackets: WAIT_VALUE whose condition, equality with the word 0, holds and does not; INDIRECT. -/
theorem witness_packetWait :
    let p (v : Nat) : List (Nat × Nat) := [(0, 3), (1, 0x6000), (2, v), (3, 0xFF)]
    let q : List (Nat × Nat) := [(0, 4), (1, 0x6000), (2, 1)]
    (queueMach (p 0)).qReads 0x7000 ((queueMach (p 0)).packetVa 0x7000) 16 = .ok (packet (p 0))
      ∧ (queueMach (p 1)).qReads 0x7000 ((queueMach (p 1)).packetVa 0x7000) 16 = .ok (packet (p 1))
      ∧ (queueMach q).qReads 0x7000 ((queueMach q).packetVa 0x7000) 16 = .ok (packet q)
      ∧ (queueMach (p 0)).devWord (.queue 0x7000) ((queueMach (p 0)).qsbCtx 0x7000) 0x6000 .load = .ok 0x6000
      ∧ ((queueMach (p 0)).readKey 0x6000 8 &&& 0xFF).toNat = 0 ∧ ((queueMach (p 1)).readKey 0x6000 8 &&& 0xFF).toNat ≠ 1 :=
  ⟨(queueMach_at _ _ (by decide +kernel)).2.2.2.2.1, (queueMach_at _ _ (by decide +kernel)).2.2.2.2.1, (queueMach_at _ _ (by decide +kernel)).2.2.2.2.1,
    by decide +kernel, by decide +kernel, by decide +kernel⟩

/-- WalkersAndPackets: a walker with no visit, one before bring-up, one with a packet still to process. -/
theorem witness_walker :
    let s : State := { queueMach [] with host := { (queueMach []).host with visit := none } }
    (0x7000 : Word) ≠ 0 ∧ s.walkerOn = true ∧ s.host.heads.getD 7 0 = 0x7000 ∧ s.qWork 0x7000 = true
      ∧ State.reset.walkerOn = false ∧ (queueMach []).qWork 0x7000 = true ∧ (0x7000 : Word) ∉ (queueMach []).host.stalled := by decide +kernel

/-- GraphLaunches: an image that passes, one refused for its slot size, one with no magic number. -/
theorem witness_launch :
    let p (img save : Nat) : List (Nat × Nat) := [(0, 1), (1, img), (9, 7), (11, save), (15, 0x6000)]
    (queueMach (p 0x4000 8192)).qReads 0x7000 ((queueMach (p 0x4000 8192)).packetVa 0x7000) 16 = .ok (packet (p 0x4000 8192))
      ∧ (match (queueMach (p 0x4000 8192)).tryLaunch 0x7000 (packet (p 0x4000 8192)) with | .ok _ => true | _ => false) = true
      ∧ (match (queueMach (p 0x4000 8191)).tryLaunch 0x7000 (packet (p 0x4000 8191)) with | .refuse k => k == 6 | _ => false) = true
      ∧ (queueMach (p 0x4000 8192)).devWord (.queue 0x7000) ((queueMach (p 0x4000 8192)).qsbCtx 0x7000) 0x6000 .store = .ok 0x6000
      ∧ (match (queueMach (p 0x6000 8192)).qReads 0x7000 0x6000 8 with
          | .ok h => (h.getD 0 0).toNat % 2 ^ 32 != 0x3149474C | _ => false) = true :=
  ⟨(queueMach_at _ _ (by decide +kernel)).2.2.2.2.1, by decide +kernel, by decide +kernel, by decide +kernel, by decide +kernel⟩

/-- The words of the image's header and of its one node. -/
def header : List Word := [0x13149474C, 0x80, 0, 0, 0, 0, 0, 0]
def nodeWords : List Word := [0x1000, 0, 1, 0x0101010101010100, 1, 1, 1, 1, 0, 0, 0, 0, 0, 0, 0, 0]

/-- GraphLaunches: the image of the packet above is read and is no bad one; its node can be placed; a record of it that is
bad and one that is not; no grant names its tag, and the banks have room. -/
theorem witness_launchImage :
    let s := queueMach [(0, 1), (1, 0x4000), (9, 7), (11, 8192), (15, 0x6000)]
    got (s.qReads 0x7000 0x4000 8) header = true ∧ got (s.qReads 0x7000 (0x4000 + (0x80 &&& ~~~7#64)) 16) nodeWords = true
      ∧ got (s.qReads 0x7000 0 0) [] = true ∧ ¬ Spec.ImageBad header nodeWords
      ∧ s.coreEnabled 0 = true ∧ Spec.imageSize (fun i => nodeWords.getD i 0) = 4672
      ∧ (∀ g ∈ s.fab.grants, g.tag ≠ 7) ∧ (∃ k < 64, ∀ a ∈ s.insts, a.slot ≠ k) ∧ (∀ a ∈ s.insts, a.l.tag ≠ 7)
      ∧ 1 ≤ Spec.bits 1 11 0 ∧ ¬ 1 ≤ Spec.bits 0 11 0 := by
  refine ⟨by decide +kernel, by decide +kernel, by decide +kernel, ?_, by decide, by decide, by decide +kernel,
    ⟨1, by decide, by decide +kernel⟩, by decide +kernel, by decide, by decide⟩
  rintro (h | h | h | h | h | ⟨i, h1, h2, h3⟩ | ⟨k, hk, h⟩ | ⟨f, m, hm, -, h⟩)
  · exact absurd h (by decide)
  · exact absurd h (by decide)
  · exact absurd h (by decide)
  · exact absurd h (by decide)
  · exact absurd h (by decide)
  · exact h3 ((by decide : ∀ i < 8, 2 ≤ i → header.getD i 0 = 0) i h2 h1)
  · have hk : k = 0 := Nat.lt_one_iff.mp hk
    subst hk
    exact absurd h (by unfold Spec.NodeBad; decide +kernel)
  · obtain ⟨h0, e, he, hb⟩ := h 0 hm
    have h0 : f 0 = 0 := Nat.lt_one_iff.mp h0
    rw [h0] at hb
    have := (by decide : ∀ e < 4, Spec.bits (nodeWords.getD (16 * 0 + 13) 0) (16 * e + 15) (16 * e) = 0) e he
    omega

/-- Checkpoints: none in progress, one that is quiet, one past its bound, and one kept. -/
theorem witness_checkpoints :
    let c : State := { queueMach [] with host := { (queueMach []).host with check := { on := true, bound := 0, started := 0 } }, cohorts := [], crews := [] }
    (queueMach []).host.check.on = false ∧ (queueMach []).walkerOn = true ∧ c.host.check.on = true
      ∧ (∀ h ∈ c.cohorts, h.ev = .evicted 0) ∧ c.fab.outbound = [] ∧ c.eng.items = []
      ∧ c.host.check.started + c.host.check.bound ≤ c.clk.ns
      ∧ [c.snapshot][0]? = some c.snapshot ∧ (∀ x ∈ c.snapshot.cells, x.1 / 2 ^ 56 < 2) := by decide +kernel

/-- StepRunsDecoded: the state that `withFetchWord` makes for SADD s5, s5, s8. -/
theorem witness_step :
    let s := State.reset.withFetchWord 32 0x02142880
    s.agenda = [.issue 0 0] ∧ s.crew? 0 0 = some { crew with size := 512, r := { pc := 0x1000 } } ∧ (s.cohort? 0).isSome = true
      ∧ (s.cohort? 0).map (fun h => crew.mayIssue h && (s.itemsOf h.uid).isEmpty
          && (match s.lane crew (h.coreOf 0) h.ctx 0x1000 .load with | .home k => k == 0x1000 | _ => false)) = some true
      ∧ crew.pend = [] ∧ crew.w = {} ∧ crew.x.ibuf = [] ∧ s.mem.loads = [] ∧ s.mem.stores = []
      ∧ decode [0x02142880] = .ok (.sadd 5 5 8) 1 ∧ decode [] = .more ∧ s.poisoned 0x1000 4 = false
      ∧ (s.readKey 0x1000 4).toNat = 0x02142880 := by decide +kernel

/-- DecodeEncode: an instruction with every operand at its limit. -/
theorem witness_wf : (Instr.vadd 255 255 (.s 191) .n4 ⟨15, true⟩ true).wf = true
    ∧ (Instr.vadd 255 255 (.s 191) .n4 ⟨15, true⟩ true).isEvent = false := by decide

/-- MemoryInvariant and MasksInvariant: reset meets the one, a crew whose xm is its om the other, and reset's step is a
cycle. -/
theorem witness_memory : State.reset.memOk ∧ State.reset.tiersOk ∧ crew.masksOk ∧ State.reset.masksOk
    ∧ step State.reset = .next State.reset.cycle :=
  ⟨rfl, (by decide : ∀ k ∈ State.reset.host.tiers, Memory.wf k.cells = true ∧ ∀ e ∈ k.cells, inHbm e.1 = true), (by unfold Crew.masksOk; decide), ⟨(fun _ h => nomatch h), (fun _ h => nomatch h)⟩, rfl⟩

/-! ## Further clauses -/

/-- RegisterPool: a claim of more than is free, and one behind another that waits, while a second crew runs. -/
theorem witness_claimWaits :
    (twoCrews crew).Issues crew coh ∧ coh.sh.free < 8 ∧ (504 : Nat) + 8 ≤ 512
      ∧ (∃ d ∈ (twoCrews crew).crewsOf 0, d.idx ≠ crew.idx ∧ d.g.exited = false ∧ d.w.kind = .none)
      ∧ ({ mach crew coh with crews := [crew, { crew with idx := 1, w := { kind := .regclm 16 } }] }).claims 0 ≠ [] := by
  unfold State.Issues; decide

/-- NopYieldExit: EXIT of a crew under SSTEP while another runs. -/
theorem witness_exitStep :
    let c : Crew := { crew with g := { ccr := 0x1000 } }
    (∃ d ∈ (twoCrews c).crewsOf 0, d.idx ≠ c.idx ∧ d.g.exited = false ∧ d.w.kind = .none) ∧ coh.bars = []
      ∧ c.g.ccr.getLsbD 12 = true ∧ c.g.hnd = false ∧ (twoCrews c).release c coh 3 = .done
      ∧ ((twoCrews c).nodeOf coh).handler ≠ 0 := by decide

/-- `m` times 2^`e`. -/
def num (m : Nat) (e : Int) : Rat := (m : Rat) * (2 : Rat) ^ e

/-- VectorFloat: 1 + 2 = 3, 1 × 2 = 2, 1 × 2 + 1 = 3; inputs of VSF that are −∞, negative, a NaN and the number 3. -/
theorem witness_floatExact :
    num 1 0 + num 1 1 = num 3 0 ∧ num 1 0 * num 1 1 = num 1 1 ∧ num 1 0 * num 1 1 + num 1 0 = num 3 0 ∧ num 3 0 ≠ 0
      ∧ num 1 0 < num 1 1 ∧ operandF false .f32 0xFF800000 = .inf true
      ∧ operandF false .f32 0xC0000000 = .fin true 0x800000 (-22) ∧ (operandF false .f32 0x7F800001).isNan = true
      ∧ operandF true .f32 0x40400000 = .fin false 0xC00000 (-22) ∧ num 0xC00000 (-22) = (3 : Int) := by decide +kernel

/-- FloatRoundTrip and FloatCorners: fields of each class of pattern; numbers of E4M3 that round, overflow and underflow. -/
theorem witness_rounding :
    (15 < 2 ^ 4 ∧ 7 < 2 ^ 3) ∧ (0 < 14 ∧ ¬ ((14 : Nat) = 15 ∧ (7 : Nat) = 7)) ∧ (2 ^ 8 - 1 < 2 ^ 8 ∧ (0 : Nat) < 2 ^ 7)
      ∧ decodeF .e4m3 (Fmt.maxBits .e4m3) = .fin false 14 5 ∧ decodeF .e4m3 (Fmt.maxBits .e4m3 - 1) = .fin false 13 5
      ∧ decodeF .e4m3 8 = .fin false 8 (-9) ∧ decodeF .e4m3 1 = .fin false 1 (-9)
      ∧ num 1 0 ≤ num 14 5 ∧ 2 * num 14 5 - num 13 5 ≤ num 1 9 ∧ num 8 (-9) ≤ num 1 0
      ∧ num 1 (-12) + num 1 (-9) / 2 ≤ num 8 (-9) ∧ (0 : Nat) < 2 ^ 24 ∧ 1 / num 1 1 ≤ num 14 5 := by decide +kernel

/-- VectorConvertAndQuantize: a block of zeros, whose scale code is 127. -/
theorem witness_quantize :
    crew.vOk 2 2 = true ∧ crew.vOk 4 (16 / Ty.count .bf16) = true
      ∧ (∀ i < 32, operandF false .bf16 (elem 16 (crew.vl (4 + i % 16 / 4) (i / 16)) (i % 16 % 4)) = .fin false 0 (-133))
      ∧ (0 : Rat) * (2 : Rat) ^ (-133 : Int) = 0 := by decide +kernel

/-- RandomAndTopK: one lane with the scores 0 and 0, in the order of their indices. -/
theorem witness_topK :
    let c : Crew := { crew with m := { om := Mask.all, xm := 1 } }
    activeLanes (c.em ⟨0, false⟩) = [0] ∧ (convertF .f32 1 false false 0 (operandF false .f32 (elem 32 (c.vl 1 0) 0))).1 = 0
      ∧ [((0 : Nat), (0 : Nat)), (1, 0)].Perm ([0].flatMap (fun l => (List.range (Ty.count .f32)).map (fun j => (l * 2 + j, 0))))
      ∧ ¬ (0x7F800000 < 0 % 2 ^ 31) ∧ (0 : Nat) < 1 := by decide +kernel

/-- A machine with line `l` poisoned. -/
def bad (s : State) (l : Nat) : State := { s with mem := { s.mem with poison := [l] } }

/-- The scratchpad statements: lanes on sound data, and the first lane on a poisoned line. -/
theorem witness_poison :
    (∀ l ∈ activeLanes (spCrew.em ⟨0, false⟩), (mach spCrew coh).spPoisoned coh (laneAddr spCrew 1 0 l).toNat 8 = false)
      ∧ (let s := bad (mach spCrew coh) (coh.spKey 65520 / 64)
         let m : Mask := 3
         mbit m 0 = true ∧ (∀ l < 32, mbit m l = (mbit (spCrew.em ⟨0, false⟩) l && s.spPoisoned coh (laneAddr spCrew 1 0 l).toNat 8))
          ∧ ∀ l < 32, (0xF : Word).toNat / 4 ^ l % 4 = if mbit m l then 3 else 0)
      ∧ spCrew.w.done = 0 ∧ spCrew.vOk 2 1 = true := by decide +kernel

/-- A shard descriptor with OOB = 1, and lanes that all lie outside it. -/
theorem witness_shardFault :
    let c : Crew := { withV [(32, 4), (33, 4)] with m := { om := Mask.all, xm := 3 } }
    (0x1301 : Word).getLsbD 12 = true ∧ (0x1301 : Word).toNat / 2 ^ 13 = 0 ∧ (0x1301 : Word).toNat / 2 ^ 8 % 4 = 3
      ∧ (∀ l ∈ activeLanes (c.em ⟨0, false⟩), ¬ (c.vl 1 l).toNat % 2 ^ 32 < 4)
      ∧ (∀ l < 32, (0xA : Word).toNat / 4 ^ l % 4 = if mbit (c.em ⟨0, false⟩) l then 2 else 0)
      ∧ (memMach c coh).mmu.marl.length ≤ 255 := by decide +kernel

/-- WaitForWord: no watch of the crew, and a sound word of the scratchpad. -/
theorem witness_waitSound : (∀ r ∈ (memMach oneLane coh).mem.remote, r.who ≠ .waita 0 0 oneLane.g.hnd)
    ∧ (mach oneLane coh).spPoisoned coh (oneLane.sr 1).toNat 8 = false := by decide

/-- EmitAndChecks: in lane 0 an element that passes and in lane 1 one beyond ALAST; a cohort at the depth limit. -/
theorem witness_emitLanes :
    let c : Crew := { withV [(32, 5), (33, 6)] with m := { om := Mask.all, xm := 3 } }
    activeLanes (c.em ⟨0, false⟩) = [0, 1] ∧ c.bOk (.v 1) = true ∧ c.vOk 2 3 = true
      ∧ (edgeInst.node 0).declared 0 false = true ∧ (c.bl (.v 1) 0).toNat % 2 ^ 16 ≤ (edgeInst.node 0).alast
      ∧ (edgeInst.node 0).alast < (c.bl (.v 1) 1).toNat % 2 ^ 16 ∧ 0 + 1 ≤ (edgeInst.node 0).maxdepth
      ∧ (edgeInst.node 0).maxdepth < 3 + 1 ∧ (edgeMach c coh).fab.outbound.length + 2 ≤ 1024 := by decide

/-- EngineQueues: sound words, poison in a record and in its footprint, and words read before a stall. -/
theorem witness_itemWords :
    (mach crew itemCoh).spBadAt itemCoh [(64, 64)] = none ∧ (itemCoh.recordWords 64 true).isSome = true
      ∧ (mach crew itemCoh).spBadAt itemCoh ((blocksOf true (itemCoh.spWords 64 8)).map (fun b => (b.1, b.2.1))) = none
      ∧ (bad (mach crew itemCoh) (itemCoh.spKey 64 / 64)).spBadAt itemCoh [(64, 64)] = some 64
      ∧ ({ crew with w := { held := [4] } } : Crew).w.held ≠ [] ∧ crew.w.held = [] ∧ (8 : Nat) % 8 = 0 := by decide +kernel

/-- TasksAndMatrixSteps: what IntegerMatrixStep asks besides. -/
theorem witness_operands :
    let h : Cohort := { coh with sp := { full := [(256, true)] } }
    mmaItem.ring = some ⟨1, 1, 1024, 2048⟩ ∧ mmaItem.task = true ∧ mmaItem.sub = 1
      ∧ (∀ x ∈ mmaMach.eng.items, x.core = 0 → x.id ≠ 0 → x.task = true → x.pos = 0 ∨ x.done = true)
      ∧ mmaMach.poisoned (h.spKey 1024) 1024 = false ∧ mmaMach.poisoned (wbKey 0 0) 1024 = false
      ∧ (1024 - 1) / 4096 = 0 := by decide

/-- An MMA.SC of E2M1S on the same ring, with every scale entry in line 0. -/
def scItem : Item := { mmaItem with words := [0xFF1, 0, 0, 1, 0, 0, 0, 0], sc := [0, 0, 0xFF, 0] }

/-- Its machine. -/
def scMach : State :=
  { mmaMach with eng := { mmaMach.eng with items := [scItem]
                                           scale := [{ core := 0, ctx := 0, line := 0, mmq := 0, words := List.replicate 8 0 }] } }

/-- TasksAndMatrixSteps: what WindowedMatrixStep asks of MMA on E4M3 and of MMA.SC on E2M1S. -/
theorem witness_windowed :
    let h : Cohort := { coh with sp := { full := [(256, true)] } }
    let it : Item := { mmaItem with words := [0xDD0, 0, 0, 1, 0, 0, 0, 0] }
    it.op = 0 ∧ Ty.ofCode (it.fld 0 7 4) = .e4m3 ∧ Ty.ofCode (it.fld 0 11 8) = .e4m3
      ∧ scItem.op = 1 ∧ Ty.ofCode (scItem.fld 0 7 4) = .e2m1s ∧ Ty.ofCode (scItem.fld 0 11 8) = .e2m1s
      ∧ scMach.item? 0 0 = some scItem ∧ scMach.itemGoes scItem = true ∧ scItem.tagWait h = false
      ∧ (∀ b < 2, ∀ i < 2, ∀ p < 64,
        let sc (n : Nat) : Nat := (scItem.sc.getD n 0).toNat
        let a := (sc b + (i * (sc 3 / 2 ^ (32 * b) % 2 ^ 32) + 0 * 64 + p) / 2 ^ (sc 2 / 2 ^ (4 * b) % 16) * 2) % 2 ^ 64
        (scMach.scaleLine scItem 0 (a / 64)).isSome = true ∧ (scMach.scaleLine scItem 0 ((a + 1) % 2 ^ 64 / 64)).isSome = true)
      ∧ (∀ t ∈ [num 1 0, num 1 1], t < num 1 2) ∧ num 1 1 ≤ num 1 1 := by decide +kernel

/-- A job of 16 bytes to a ring of one slot, whose tag is empty or full. -/
def ringJob : Item := { item 256 false with ring := some ⟨1, 1, 1024, 2048⟩, sub := 1, buf := List.replicate 8 1 }

/-- The item was read, and the place in its pool. -/
def tokenOf (x : Item × Rd (Option Nat)) : Option (Option Nat) :=
  match x.2 with
  | .ok p => some p
  | _ => none

/-- How many bytes were read. -/
def bytesOf (x : Rd (List Byte)) : Option Nat :=
  match x with
  | .ok l => some l.length
  | _ => none

/-- Jobs: a unit without a token; a slot that is empty and one that is full. -/
theorem witness_jobRead :
    tokenOf ((itemMach [item 256 false]).unitToken (item 256 false) itemCoh) = some none
      ∧ (item 256 false).unitLines 0 none = [] ∧ ringJob.ring = some ⟨1, 1, 1024, 2048⟩ ∧ ringJob.total ≠ 0
      ∧ min 8 (ringJob.total - ringJob.pos) ≤ ringJob.buf.length ∧ itemCoh.full 2048 = false
      ∧ ({ itemCoh with sp := { itemCoh.sp with full := [(256, true)] } } : Cohort).full 2048 = true
      ∧ ringJob.pos % 1024 = 0 ∧ ringJob.selfOverlap = false := by decide +kernel

/-- Jobs: bytes of scratchpad and of memory that can be read; a COPY2D of two rows of two words. -/
theorem witness_jobSources :
    let sp := item 256 false
    let mem : Item := { sp with words := sp.words.set 0 0 |>.set 1 0x3000 }
    let d2 : Item := { sp with words := [0x31, 512, 520, 0x200000010, 0x1000000020, 0, 0, 0] }
    sp.srcSp = true ∧ (itemMach [sp]).poisoned (itemCoh.spKey 512) 8 = false ∧ mem.srcSp = false
      ∧ (memMach crew itemCoh).route 0x3000 = .own 0
      ∧ (memMach crew itemCoh).xlate 0 0x3000 .load false = some (.home 0, false)
      ∧ (memMach crew itemCoh).poisoned 0x3000 8 = false ∧ 0x3000 % 2 ^ 16 + 8 ≤ 2 ^ 16
      ∧ d2.op = 1 ∧ 0 < d2.fld 3 31 0 / 8 ∧ d2.fld 3 63 32 = 2 := by decide +kernel

/-- A GATHERBT of tokens of 8 bytes whose table is at 0x3000 and whose pool, at 0x6000, its footprint holds. -/
def gather : Item :=
  { item 256 false with words := [0x802, 0x6000, 520, 0x100000000, 0x3000, 0, 0, 0]
                        fp := [⟨false, 4, 0x6000, 64⟩] }

/-- A WIDEN of four E4M3 elements, and one by the table. -/
def widen (bt : Bool) : Item :=
  { item 256 false with words := [if bt then 0x400D0B3 else 0xD033, 512, 520, 4, 0x3000, 0, 0, 0], fp := [⟨false, 4, 512, 64⟩] }

/-- Jobs: a token that is known, one whose entry is at hand; a place in the footprint and one outside it; a run and its
source; a FILLWB that copies and one that compresses. -/
theorem witness_jobKinds :
    let g : Item := { gather with words := gather.words.set 0 0x8000002 }
    let fill : Item := { item 256 false with words := [0xD024, 0, 0, 0, 0, 0, 0, 0] }
    let comp : Item := { item 256 false with words := [0x1D014, 1024, 0, 1, 0, 0, 0, 0] }
    g.op = 2 ∧ g.perToken = some 1 ∧ ({ g with tok := some (0, none) } : Item).tok = some (0, none)
      ∧ bytesOf ((memMach crew itemCoh).itemBytes g 0 0x3000 4) = some 4
      ∧ inside g.fp false 4 0x6000 8 = true ∧ inside g.fp false 4 0x7000 8 = false
      ∧ (widen false).op = 3 ∧ (widen true).op = 3 ∧ (widen false).bt = false ∧ (widen true).bt = true
      ∧ (widen false).efmt = .e4m3 ∧ (widen false).fld 7 11 10 = 0 ∧ min 4 (4 - 4 * 0) = 4
      ∧ bytesOf ((itemMach []).srcBytes (widen false) itemCoh 512 4) = some 4
      ∧ inside (widen true).fp false 4 512 4 = true
      ∧ fill.op = 4 ∧ fill.fld 0 17 16 ≠ 1 ∧ comp.op = 4 ∧ comp.fld 0 17 16 = 1 ∧ comp.efmt = .e4m3
      ∧ bytesOf ((itemMach []).srcBytes comp itemCoh 1024 1024) = some 1024 := by decide +kernel

/-- BarriersAndEdges: a node that an EARLY node names, and one that none names. -/
theorem witness_hints :
    let i : Inst := { edgeInst with nodes := [{ edgeNode with pred := [0x8000], early := true }] }
    (∃ n ∈ i.nodes, n.early = true ∧ 0 ∈ n.preds) ∧ (∀ n ∈ edgeInst.nodes, n.early = true → 0 ∉ n.preds) := by decide

/-- RecordsAndReservations: a port for records to device 5. PortsAndMailboxes: a port that a request took. -/
theorem witness_routes :
    let s : State := { edgeMach crew coh with fab := { State.reset.fab with routes := [(5, 2)], ports := State.reset.fab.ports.set 1 { width := 4 } } }
    s.recordPort 0 5 = some 1 ∧ (outRec true).held = true ∧ s.fab.ports[1]? = some { width := 4 }
      ∧ ({ remote (.store 5) with port := some 1 } : Remote).port = some 1 := by decide +kernel

/-- EvictionAndLimits: no write of a lane-private region is on its way. RemoteTraffic: a request by a port that stands, to
no home of host memory, of a crew that waits for no page; a watch of a crew's WAITA, and a crew that was evicted. -/
theorem witness_requests2 :
    (remote (.store 5)).late = false ∧ (∀ r ∈ (evictMach .saving).mem.remote, r.who ≠ .lp 0) ∧ (remote (.store 5)).lost = false ∧ (remote (.store 5)).key = none
      ∧ vaPage 0x14000000003000 ∉ crew.h.w.pages ∧ (∃ b, (remote (.waita 0 0 false)).who = .waita 0 0 b)
      ∧ ({ crew with w := { kind := .waita .eq 0x3000 7 } } : Crew).w.kind = .waita .eq 0x3000 7
      ∧ ({ coh with ev := .evicted 0 } : Cohort).ev = .evicted 0 := by
  refine ⟨rfl, by decide, rfl, rfl, by decide, ⟨false, rfl⟩, rfl, rfl⟩

/-- GraphLaunches: no launch waits for its status word, and an image that cannot be read. Checkpoints: nothing on its way,
one within its bound, one past it. StepRunsDecoded: a home outside host memory. -/
theorem witness_launchAndCheck :
    (∀ e ∈ (queueMach []).host.launching, e.1 ≠ 0x7000)
      ∧ (match (queueMach []).qReads 0x7000 0x30000000000000 8 with | .fail _ _ => true | _ => false) = true
      ∧ (queueMach []).mem.stores = [] ∧ (queueMach []).clk.ns ≤ 0 + 0 ∧ (0 : Nat) + 0 < 1
      ∧ (0x6000 / 2 ^ 56 ≠ 2 ∧ 0x1000 / 2 ^ 56 ≠ 2) := by decide +kernel

/-! ## The boundaries of the clauses, and the cases that stand beside them -/

/-- RegisterPool: a claim of this cycle by a higher crew is not ahead, one by a lower crew and one of an earlier cycle are. -/
theorem witness_claimOrder :
    let claims (t i : Nat) : List (Nat × Nat × Nat) := ({ mach crew coh with
      crews := [{ crew with idx := 1 }, { crew with idx := i, w := { kind := .regclm 16, at_ := t } }]
      clk := { State.reset.clk with cycle := 1 } }).claims 0
    let ahead (t i : Nat) : Prop := ∃ k ∈ claims t i, k.1 < 1 ∨ (k.1 = 1 ∧ k.2.1 < 1)
    ¬ ahead 1 2 ∧ ahead 1 0 ∧ ahead 0 2 := by decide

/-- ArithmeticTrapsAndAborts: no record of the cohort is in the element's back list, where another one stands. -/
theorem witness_noDouble :
    let a : Inst := { edgeInst with nodes := [{ edgeNode with replay := true }], queues := [{ node := 0, elem := 0, back := [qrec 7] }] }
    let h : Cohort := { coh with recs := [qrec 3] }
    (∀ x ∈ h.recs, ∀ y ∈ (a.queue h.node h.elem).back, y.id ≠ x.id) ∧ (a.queue h.node h.elem).back ≠ [] := by decide

/-- LanePrivate: lanes on sound data, and lane 0 on a poisoned line. -/
theorem witness_lanePoison :
    let c : Crew := { withV [(32, 56)] with m := { om := Mask.all, xm := 1 } }
    let s : State := { memMach c coh with insts := [{ slot := 0, nodes := [node], a := { lpSize := 64, lpVa := 0x3000 } }] }
    let k := (s.lpAddr c coh 56 0).toNat / 64
    let m : Mask := 1
    (∀ l ∈ activeLanes (c.em ⟨0, false⟩), s.lpPoisoned c coh (laneAddr c 1 0 l).toNat l 8 = false)
      ∧ mbit m 0 = true ∧ (∀ l < 32, mbit m l = (mbit (c.em ⟨0, false⟩) l && (bad s k).lpPoisoned c coh (laneAddr c 1 0 l).toNat l 8))
      ∧ (∀ l < 32, (3 : Word).toNat / 4 ^ l % 4 = if mbit m l then 3 else 0) := by decide +kernel

/-- The machine in which device 7 is another one and a crew has sent all but its last records. -/
def sending (l : List (Nat × Nat × Record)) : Crew := { emitCrew with w := { begun := true, emits := l } }

/-- EmitAndChecks: a crew amid its unit with a record left, with none, and with one for this device by its number; an element
without room; an outbound area that is full and one that is not. -/
theorem witness_turns :
    let x : Nat × Nat × Record := (3, 1024, rec0 5 1)
    let i : Inst := { edgeInst with nodes := [{ edgeNode with cap := 0 }] }
    (sending [x]).w.begun = true ∧ (sending [x]).w.kind = .none ∧ (sending [x]).w.emits = [x] ∧ (sending []).w.emits = []
      ∧ ({ edgeMach (sending [x]) coh with insts := [i] }).enqueue? 0 (rec0 5 1) true = none
      ∧ refused ingress { rec0 5 1 with remote := true } = false ∧ refused edgeInst (rec0 5 1) = true
      ∧ (7 : Nat) ≠ 1024 ∧ 7 ≠ State.reset.devid
      ∧ ¬ 1024 ≤ (State.reset.fab.outbound.filter (fun o => o.die == 0)).length := by decide

/-- A full outbound area. -/
theorem witness_outboundFull : 1024 ≤ ((List.replicate 1024 (outRec false)).filter (fun o => o.die == 0)).length :=
  Nat.le_of_eq (by rw [List.filter_replicate_of_pos rfl, List.length_replicate])

/-- BarriersAndEdges: an early cohort whose crew has returned from WAITPRED before. -/
theorem witness_waited : ({ crew with g := { waited := true } } : Crew).g.waited = true ∧ crew.g.waited = false
    ∧ ({ coh with early := true } : Cohort).early = true := by decide

/-- TasksAndMatrixSteps and Jobs: an item whose cohort has not aborted. MemoryEvents: a crew that has not exited. -/
theorem witness_inFlight : mmaItem.aborted = false ∧ (item 256 false).aborted = false ∧ crew.g.exited = false := by decide

/-- EvictionAndLimits: at the limit a crew amid a unit whose accesses are out, and one that is not. -/
theorem witness_limitUnit :
    let c : Crew := { crew with w := { own := [4] } }
    c.w.kind = .none ∧ c.w.own ≠ [] ∧ ((mach c coh).crewsOf 0).find? (fun c => !c.g.exited) = some c
      ∧ 1024 * ((mach c { coh with run := 1024 }).nodeOf { coh with run := 1024 }).runlimit ≤ ({ coh with run := 1024 } : Cohort).run
      ∧ (crew.w.kind ≠ .none ∨ crew.w.own = []) := by decide

/-- Two live instances, the first of which has nothing left. -/
def twoInsts (a : Inst) : State :=
  { memMach crew coh with insts := [a, { queued with slot := 1, l := { serial := 2 } }], cohorts := [], crews := [] }

/-- InstanceEnds: an instance with nothing left beside one that lives on, the word of its completion at hand. -/
theorem witness_completes :
    let a : Inst := { edgeInst with l := { serial := 1, compVa := 0x3000 } }
    let s := twoInsts a
    s.inst? 0 = some a ∧ a.l.ending = false ∧ (∀ b ∈ s.insts, b.slot = 0 ∨ b.l.serial = a.l.serial → b = a)
      ∧ ¬ (∃ q ∈ a.queues, q.count ≠ 0) ∧ ¬ (∃ h ∈ s.cohorts, h.serial = a.l.serial ∧ h.ev ≠ .dead)
      ∧ a.ctrs = [] ∧ a.grids = [] ∧ a.l.waiting = false ∧ ¬ (∃ b ∈ s.insts, a.l.dep = some b.l.serial)
      ∧ s.fab.outbound = [] ∧ s.mem.stores = [] ∧ s.mem.log = [] ∧ s.mem.remote = []
      ∧ s.devWord (.completion a.l.serial) a.l.ctx a.l.compVa .store = .ok 0x3000 := by decide +kernel

/-- InstanceEnds: each condition of R74 alone, and a store that is not performed. -/
theorem witness_lives :
    let s := twoInsts edgeInst
    (∃ q ∈ queued.queues, q.count ≠ 0)
      ∧ (∃ h ∈ [coh], h.serial = edgeInst.l.serial ∧ h.ev ≠ .dead)
      ∧ (ctrInst 2 false).ctrs ≠ [] ∧ ({ edgeInst with grids := [⟨0, 0, qrec 1, 4, 1, 1, 0, none⟩] } : Inst).grids ≠ []
      ∧ ({ edgeInst with l := { serial := 1, waiting := true } } : Inst).l.waiting = true
      ∧ (∃ b ∈ s.insts, ({ edgeInst with l := { serial := 1, dep := some 2 } } : Inst).l.dep = some b.l.serial)
      ∧ (∃ o ∈ [outRec false], o.serial = edgeInst.l.serial)
      ∧ (∃ h ∈ [coh], h.serial = edgeInst.l.serial ∧ ∃ x ∈ [item 64 true], x.uid = h.uid)
      ∧ (∃ e ∈ [store false], e.serial = edgeInst.l.serial ∧ e.far = false) := by decide

/-- InstanceEnds: no instance waits for one that is stuck; and what prevents R75's halt: a wait not yet long enough, no live
cohort, a crew that runs, waits for YIELD, for WAITA or for a page. -/
theorem witness_noDeadlock :
    let m (k : Wait) : State := edgeMach { crew with w := { kind := k } } coh
    let free (k : Wait) : Prop := ∃ c ∈ (m k).crewsOf coh.uid, (c.g.exited = false ∨ c.g.hnd = true) ∧ c.w.kind = k
    (∀ b ∈ (m .none).insts, b.l.dep ≠ some edgeInst.l.serial)
      ∧ State.reset.clk.ns < 0 + 10000 ∧ (twoInsts edgeInst).live edgeInst = [] ∧ free .none ∧ free .yield
      ∧ free (.waita .eq 0x3000 7) ∧ free (.page 0) := by decide

/-- QueueRules: a crew blocked with a record for the same element behind it, and with one for another. -/
theorem witness_nextRecord :
    let w (e : Nat) : WaitSt := { kind := .emit 0 5, emits := [(0, 1024, rec0 5 1), (1, 1024, rec0 e 1)] }
    (w 5).emits = (0, 1024, rec0 5 1) :: [(1, 1024, rec0 5 1)] ∧ ((rec0 5 1).node = 0 ∧ (rec0 5 1).aidx = 5)
      ∧ (w 4).emits = (0, 1024, rec0 5 1) :: [(1, 1024, rec0 4 1)] ∧ ¬ ((rec0 4 1).node = 0 ∧ (rec0 4 1).aidx = 5) := by decide

/-- A record of element 48 of node 0, which shares bank 0 with element 0. -/
def farRec : QRec := ⟨2, rec0 48 0, 0, none, 0⟩

/-- An instance with a queue of `n` records and one of a single record, both in bank 0, and one Silt block. -/
def twoQueues (n : Nat) : Inst :=
  { edgeInst with a := { siltBlocks := 1 }, queues := [{ node := 0, elem := 48, loam := [farRec] },
                                                       { node := 0, elem := 0, loam := List.replicate n (qrec 1) }] }

/-- What those queues are, whatever their length. -/
theorem twoQueues_facts (n : Nat) :
    (∀ x ∈ (twoQueues n).stored, x.blk = none) ∧ ({ edgeMach crew coh with insts := [twoQueues n] }).bankCount 0 = n + 1
      ∧ (∀ q ∈ (twoQueues n).queues, ∀ x ∈ q.loam, x.blk = none) ∧ (twoQueues n).freeBlocks = 1
      ∧ (∀ p ∈ (twoQueues n).queues, p.loam.length = 1 ∨ (p.loam.length = n ∧ p.node = 0 ∧ p.elem = 0)) := by
  have hs : (twoQueues n).stored = farRec :: List.replicate n (qrec 1) := by
    simp [Inst.stored, twoQueues, Queue.all, edgeInst]
  have hb : ∀ x ∈ (twoQueues n).stored, x.blk = none := by
    rw [hs]; intro x hx
    rcases List.mem_cons.mp hx with h | h
    · rw [h]; rfl
    · rw [List.eq_of_mem_replicate h]; rfl
  have h : farRec.blk = none ∧ bankOf farRec.r.node farRec.r.aidx = 0 := by decide
  have h' : (qrec 1).blk = none ∧ bankOf (qrec 1).r.node (qrec 1).r.aidx = 0 := by decide
  refine ⟨hb, ?_, ?_, ?_, ?_⟩
  · simp [State.bankCount, hs, h, h']
  · intro q hq x hx
    exact hb x (by rw [Inst.stored]; exact List.mem_append_left _ (List.mem_flatMap.mpr ⟨q, hq, by simp [Queue.all, hx]⟩))
  · have : (twoQueues n).stored.filterMap (·.blk) = [] := List.filterMap_eq_nil_iff.mpr hb
    rw [Inst.freeBlocks, this]; rfl
  · simp [twoQueues]

/-- QueueRules: of two queues in a bank above its mark, the one that a spill picks. -/
theorem witness_spillPick :
    bankOf 0 48 = 12 * 0 + 0 ∧ bankOf 0 0 = 12 * 0 + 0
      ∧ 28672 < ({ edgeMach crew coh with insts := [twoQueues 28672] }).bankCount 0
      ∧ (∀ p ∈ (twoQueues 28672).queues, p.loam.length < 28672 ∨ (p.loam.length = 28672 ∧ (0 < p.node ∨ (0 = p.node ∧ 0 ≤ p.elem))))
      ∧ (twoQueues 28672).freeBlocks = 1 ∧ (∀ q ∈ (twoQueues 28672).queues, ∀ x ∈ q.loam, x.blk = none)
      ∧ (∀ x ∈ (twoQueues 28672).stored, ∀ b, x.blk = some b → b < (twoQueues 28672).a.siltBlocks)
      ∧ (twoQueues 28672).queues.Pairwise (fun x y => x.node ≠ y.node ∨ x.elem ≠ y.elem) := by
  obtain ⟨h1, h2, h3, h4, h5⟩ := twoQueues_facts 28672
  refine ⟨by decide, by decide, by omega, ?_, h4, h3, ?_, by decide⟩
  · intro p hp
    have := h5 p hp
    omega
  · intro x hx b hx'
    rw [h1 x hx] at hx'; cases hx'

/-- RecordsAndReservations: tags held only by an instance that waits for its status word, or whose completion word is on its
way; two held records of one element to a device that can be reached, of which one goes. -/
theorem witness_heldRecords :
    let l (w e : Bool) : List Inst := [{ ingress with l := { serial := 1, tag := 7, waiting := w, ending := e } }]
    let two : List OutRec := [outRec true, { outRec true with id := 5, sn := 3 }]
    let s : State := { edgeMach crew coh with fab := { State.reset.fab with routes := [(5, 2)], outbound := two, ports := State.reset.fab.ports.set 1 { width := 4 } } }
    (∀ a ∈ l true false, a.l.tag ≠ 7 ∨ a.l.waiting = true ∨ a.l.ending = true)
      ∧ (∀ a ∈ l false true, a.l.tag ≠ 7 ∨ a.l.waiting = true ∨ a.l.ending = true) ∧ ingress.l.ending = false
      ∧ two.Pairwise (fun x y => x.id ≠ y.id) ∧ (∀ o ∈ two, (s.recordPort o.die o.dev).isSome = true)
      ∧ (s.fab.outbound.filter (fun o => o.held && o.dev == 5 && o.tag == 7 && o.r.node == 0 && o.r.aidx == 5)).length = 2 := by
  decide +kernel

/-- RemoteTraffic: the last word of an answer and one that is not; a store of two words. -/
theorem witness_words :
    let r : Remote := { remote (.part 6 1 (.v 64)) with n := 16, got := [3] }
    8 * (([] : List Word).length + 1) < 16 ∧ r.n ≤ 8 * (r.got.length + 1) ∧ (1 : Nat) < 64
      ∧ (0x14000000003008 : Word) = r.va + BitVec.ofNat 64 (8 * 1) ∧ (16 : Nat) % 8 = 0 ∧ 8 % 8 = 0 := by decide

/-- ShardInvalidation: a load that resolved before the entries were dropped, one that resolved after, and a crew amid a unit. -/
theorem witness_resolved :
    let v := shinv true []
    let old (tensor : Option Nat) (res : Nat) : Prop := tensor = some v.tensor ∧ res ≤ v.id
    (∃ l ∈ [{ load with tensor := some 1, res := 3 }], old l.tensor l.res)
      ∧ (∀ l ∈ [{ load with tensor := some 1, res := 4 }], ¬ old l.tensor l.res)
      ∧ (∃ e ∈ [{ store false with tensor := some 1 }], old e.tensor e.res)
      ∧ ∃ c ∈ [{ crew with w := { marl := [(4097, 0, [])], res := 3 } }], c.w.res ≤ v.id ∧ ∃ e ∈ c.w.marl, e.1 % 4096 = v.tensor := by
  decide

/-- ItemEndings: a record with CWEN and DCEN, a counter whose last decrement finds room and one that finds none, and a
counter that is pending. -/
theorem witness_lastDecrement :
    let it : Item := { item 64 true with words := ((item 64 true).words.set 7 0x100).set 6 0x500100200, done := true }
    let m (i : Inst) : State := { edgeMach crew coh with insts := [i] }
    let none_ : Inst := { ctrInst 1 false with nodes := [{ edgeNode with cap := 0 }] }
    it.fld 6 20 20 = 1 ∧ it.fld 7 8 8 = 1 ∧ it.fld 7 7 0 = 0
      ∧ (ctrInst 1 false).ctrs.find? (fun y => y.n == 0) = some { n := 0, remaining := 1, pending := false, r := rec0 5 1 }
      ∧ (m (ctrInst 1 false)).waitsAhead (ctrInst 1 false) 0 5 (m (ctrInst 1 false)).fresh.seq = false
      ∧ (((m (ctrInst 1 false)).enqueue? 0 (rec0 5 1) true).bind (·.inst? 0)).isSome = true
      ∧ (m none_).enqueue? 0 (rec0 5 1) true = none
      ∧ (∀ x, (ctrInst 0 true).ctrs.find? (fun y => y.n == 0) = some x → x.pending = true) := by
  refine ⟨by decide, by decide, by decide, by decide, by decide, by decide, by decide, ?_⟩
  intro x h
  have : some x = some { n := 0, remaining := 0, pending := true, r := rec0 5 1 } := h.symm.trans (by decide)
  rw [Option.some.inj this]

/-- GraphLaunches: a packet whose status word lies in no die. -/
theorem witness_noStatusWord :
    let s := queueMach [(0, 1), (1, 0x4000), (9, 7), (11, 8192), (15, 0xC000000000000)]
    got (s.qReads 0x7000 (s.packetVa 0x7000) 16) (packet [(0, 1), (1, 0x4000), (9, 7), (11, 8192), (15, 0xC000000000000)]) = true
      ∧ (match s.devWord (.queue 0x7000) (s.qsbCtx 0x7000) 0xC000000000000 .store with | .fail _ => true | _ => false) = true := by
  decide +kernel

/-! ## Ill-formed terms: for each check of WellFormed a term that it refuses -/

/-- No predication. -/
def np : Pred := ⟨0, false⟩

/-- Register, predicate and immediate fields out of their ranges (R252 to R256). -/
theorem ill_fields :
    (Instr.sadd 192 0 0).wf = false ∧ (Instr.vand 256 0 (.v 0) np).wf = false ∧ (Instr.vand 0 0 (.v 256) np).wf = false
      ∧ (Instr.vand 0 0 (.s 192) np).wf = false ∧ (Instr.pand 16 0 0).wf = false ∧ (Instr.vand 0 0 (.v 0) ⟨16, false⟩).wf = false
      ∧ (Instr.vand 0 0 (.v 0) ⟨0, true⟩).wf = false ∧ (Instr.saddi 0 0 34359738368).wf = false
      ∧ (Instr.saddi 0 0 (-34359738369)).wf = false ∧ (Instr.vaddi 0 0 64 .s8 np false).wf = false
      ∧ (Instr.vaddi 0 0 (-65) .s8 np false).wf = false ∧ (Instr.bra 8192).wf = false ∧ (Instr.call (-8193)).wf = false
      ∧ (Instr.bcc .z 128 0).wf = false ∧ (Instr.sshlImm 0 0 64).wf = false ∧ (Instr.phase 5).wf = false
      ∧ (Instr.vfadd 0 0 (.v 0) .f32 np 6).wf = false := by decide

/-- Types that an instruction does not take (R270, R273, R274, R337 to R353). -/
theorem ill_types :
    (Instr.vadd 0 0 (.v 0) .f32 np false).wf = false ∧ (Instr.vmin 0 0 (.v 0) .e4m3 np).wf = false
      ∧ (Instr.vclz 0 0 .bf16 np).wf = false ∧ (Instr.vrng 0 .f16 np).wf = false ∧ (Instr.vmovi 0 0 .f32 np).wf = false
      ∧ (Instr.vfadd 0 0 (.v 0) .s32 np 0).wf = false ∧ (Instr.vfmin 0 0 (.v 0) .e5m2 np).wf = false
      ∧ (Instr.vcmpEq 0 0 (.v 0) .e2m1s 0 np).wf = false ∧ (Instr.vcmpEq 0 0 (.v 0) .s32 2 np).wf = false
      ∧ (Instr.vcmpUn 0 0 (.v 0) .s32 0 np).wf = false ∧ (Instr.vcvt 0 0 .f32 .f32 np 0 false).wf = false
      ∧ (Instr.vcvt 0 0 .f32 .bf16 np 6 false).wf = false ∧ (Instr.vcvt 0 0 .f32 .bf16 np 0 true).wf = false
      ∧ (Instr.vcvt 0 0 .bf16 .f32 np 7 false).wf = false ∧ (Instr.vhad 0 0 false .f16 np 0).wf = false
      ∧ (Instr.vqnt 0 0 .f16 .f32 0 np 0).wf = false ∧ (Instr.vqnt 0 0 .s8 .f16 0 np 0).wf = false
      ∧ (Instr.vqnt 0 0 .s8 .f32 3 np 0).wf = false ∧ (Instr.vqnt 0 0 .s8 .f32 0 np 7).wf = false
      ∧ (Instr.vshfl 0 0 (.v 0) .e2m1s np).wf = false ∧ (Instr.vred .add 0 0 .e4m3 np 0 false).wf = false
      ∧ (Instr.vred .add 0 0 .s32 np 6 false).wf = false ∧ (Instr.vred .add 0 0 .f32 np 0 true).wf = false
      ∧ (Instr.vtopk 0 0 false 0 .f32 np).wf = false ∧ (Instr.vtopk 0 0 false 17 .f32 np).wf = false
      ∧ (Instr.vtopk 0 0 false 1 .s32 np).wf = false := by decide

/-- Lists of VEXPR: eleven tokens, a stack underflow, a fifth value, two values left, a register above 127 (R260, R261). -/
theorem ill_expr :
    let e (l : List Tok) : Bool := (Instr.vexpr 0 0 0 0 0 .f32 (l ++ List.replicate (12 - l.length) .fin) false false).wf
    e [.i0] = true ∧ e [.add] = false ∧ e [.i0, .i0, .i0, .i0, .i0, .fma, .fma] = false ∧ e [.i0, .i1] = false
      ∧ (Instr.vexpr 0 0 0 0 0 .f32 [.i0] false false).wf = false
      ∧ (Instr.vexpr 128 0 0 0 0 .f32 (.i0 :: List.replicate 11 .fin) false false).wf = false := by decide

/-- Tiles, memory, scratchpads, records and barriers (R258, R323, R305, R314, R295). -/
theorem ill_memory :
    (Instr.trd 0 false 64 0 0 .f32 np 0).wf = false ∧ (Instr.trd 0 false 0 0 256 .f32 np 0).wf = false
      ∧ (Instr.trd 0 false 0 0 0 .f32 np 1).wf = false ∧ (Instr.trd 0 false 0 0 0 .s16 np 0).wf = false
      ∧ (Instr.twr 0 false 0 0 0 .e4m3 np).wf = false ∧ (Instr.ttest 0 false 64 0 0 np).wf = false ∧ (Instr.tzero 64).wf = false
      ∧ (Instr.sld 191 0 0 .pair 0 false).wf = false ∧ (Instr.sst 189 0 0 .quad 0 false).wf = false
      ∧ (Instr.sld 0 0 64 .b8 0 false).wf = false ∧ (Instr.vld 0 0 0 .b8 np 5 false).wf = false
      ∧ (Instr.vldLp 0 0 192 .b8 np).wf = false ∧ (Instr.vatom64 .fadd 0 0 0 np 0 false false).wf = false
      ∧ (Instr.tld 0 0 0 4 np false).wf = false ∧ (Instr.spld 256 0 0 .b8 np).wf = false ∧ (Instr.spset true 0 192 np).wf = false
      ∧ (Instr.emit 0 0 (.v 0) 7 np).wf = false ∧ (Instr.emit 0 1 (.v 0) 0 np).wf = false
      ∧ (Instr.emitS 0 187 0 6).wf = false ∧ (Instr.emitS 0 1 0 0).wf = false ∧ (Instr.recldV 0 7 2 np).wf = false
      ∧ (Instr.recldV 0 7 0 np).wf = false ∧ (Instr.recldS 190 0 3).wf = false ∧ (Instr.bar 0 16).wf = false := by decide

/-! ## Words that the reference entries give (R262 and the entries of chapters 17 to 19) -/

/-- Scalar and control instructions. -/
theorem word_scalar :
    decode [0x102048C9] = .ok (.sshrImm 8 9 12) 1 ∧ decode [0xFC000080, 0x1A280810] = .ok (.smoviHi 10 0x40010) 2
      ∧ decode [0x0A20307F] = .ok (.sandi 8 6 0x7F) 1 ∧ decode [0xFC000020, 0x0A102000] = .ok (.sandi 4 4 0x10000) 2
      ∧ decode [0x1C182050] = .ok (.sbfx 6 4 5) 1 ∧ decode [0x26000020] = .ok (.call 32) 1 ∧ decode [0x28000000] = .ok .ret 1
      ∧ decode [0x2A0C0820] = .ok (.pand 3 1 2) 1 ∧ decode [0x2C1C1000] = .ok (.pcnt 7 2) 1
      ∧ decode [0x2E000801] = .ok (.xmpush 1) 1 ∧ decode [0x25000002] = .ok (.bccPred .pnone 0 2) 1
      ∧ decode [0x2E000003] = .ok .xmelse 1 ∧ decode [0x2E000002] = .ok .xmpop 1 ∧ decode [0x36000038] = .ok (.regrel 56) 1
      ∧ decode [0x38000018] = .ok (.regclm 24) 1 ∧ decode [0x3A002800] = .ok (.rngsetSeed 5) 1
      ∧ decode [0x3A180002] = .ok (.rnggetCtr 6) 1 ∧ decode [0x3C000001] = .ok .tret 1 ∧ decode [0x3C000002] = .ok .brk 1
      ∧ decode [0x3E000000] = .ok .nop 1 ∧ decode [0x3E000001] = .ok .yield 1 ∧ decode [0x3E000002] = .ok .exit 1
      ∧ decode [0xD4000000] = .ok .drain 1 ∧ decode [0xE8000000] = .ok .waitpred 1 ∧ decode [0xEA000000] = .ok .hintsucc 1
      ∧ decode [0xFE000400, 0xD2000001] = .ok (.phaseRel 2) 2 := by decide

/-- Vector arithmetic. -/
theorem word_vector :
    decode [0x503468F1] = .ok (.vor 13 13 (.v 15) np) 1 ∧ decode [0x6C0C1009] = .ok (.vclz 3 2 .n4 np) 1
      ∧ decode [0x4C143072] = .ok (.vdiv 5 6 (.v 7) .s32 np) 1 ∧ decode [0x46102861] = .ok (.vmul 4 5 (.v 6) .s16 np false) 1
      ∧ decode [0x58143072] = .ok (.vmin 5 6 (.v 7) .s32 np) 1 ∧ decode [0x6E104001] = .ok (.vmovBcast 4 8 np) 1
      ∧ decode [0x70080051] = .ok (.vmovi 2 5 .s16 np) 1 ∧ decode [0x560C2050] = .ok (.vsra 3 4 (.v 5) .s8 np) 1
      ∧ decode [0x66143072] = .ok (.vsel 5 6 (.v 7) 2 np) 1 ∧ decode [0x720C104C] = .ok (.vfadd 3 2 (.v 4) .bf16 np 0) 1
      ∧ decode [0x7C08184B] = .ok (.vfmin 2 3 (.v 4) .f16 np) 1 ∧ decode [0x801010AD] = .ok (.vcvt 4 2 .e4m3 .f32 np 0 false) 1
      ∧ decode [0x82101001] = .ok (.vsf 4 2 .rsq np) 1 ∧ decode [0x8618101A] = .ok (.vhad 6 2 true .f32 np 0) 1
      ∧ decode [0x8A182095] = .ok (.vshfl 6 4 (.v 9) .n16 np) 1 ∧ decode [0x8C2410A3] = .ok (.vvote .count 9 2 10) 1
      ∧ decode [0x9230502A] = .ok (.vtopk 12 10 false 3 .f32 np) 1 ∧ decode [0x94240006] = .ok (.vrng 9 .n32 np) 1
      ∧ decode [0xFF034000, 0x7208103A] = .ok (.vfadd 130 2 (.v 3) .f32 ⟨1, true⟩ 2) 2 := by decide

/-- Memory, tiles, records, barriers and engines. -/
theorem word_memory :
    decode [0x9C002800] = .ok (.tzero 5) 1 ∧ decode [0x22506003] = .ok (.sst 20 12 0 .b64 0 false) 1
      ∧ decode [0xC220304C] = .ok (.vstLp 8 6 4 .pair np) 1 ∧ decode [0xCA281101] = .ok (.tst 10 2 16 1 np false) 1
      ∧ decode [0xD0242050] = .ok (.waita .eq 9 4 5) 1 ∧ decode [0xD0242057] = .ok (.waitaSp .ltn 9 4 5) 1
      ∧ decode [0xE22CA153] = .ok (.emitS 11 20 21 3) 1 ∧ decode [0xE6004831] = .ok (.barArv 9 3) 1
      ∧ decode [0xEE2858C0] = .ok (.depsetArm 10 11 12) 1 ∧ decode [0xE4040120] = .ok (.recldV 1 2 2 np) 1 := by decide

/-! ## One instruction each, with the results that the reference entries give -/

/-- SADD wraps (R268). -/
theorem test_sadd : after (mach (withS [(8, 1), (9, 0xFFFFFFFFFFFFFFFF)]) coh) (.sadd 10 8 9) (·.sr 10) = some 0 := by decide

/-- SSET.lt of −1 and 1 writes 1, SSET.lt.n writes 0, and SMULH writes −1 (R321). -/
theorem test_sset :
    let c := withS [(4, 0xFFFFFFFFFFFFFFFF), (5, 1)]
    after (mach c coh) (.sset .lt 9 4 5) (·.sr 9) = some 1 ∧ after (mach c coh) (.sset .ltn 9 4 5) (·.sr 9) = some 0
      ∧ after (mach c coh) (.smulh 9 4 5) (·.sr 9) = some 0xFFFFFFFFFFFFFFFF := by decide

/-- The fields of chapter 18's example: SBFX, SBFX.n and SBFI. -/
theorem test_sbfx :
    let c := withS [(4, 0x123456789ABCDEF0), (5, 0x0F04)]
    after (mach c coh) (.sbfx 6 4 5) (·.sr 6) = some 0xFFFFFFFFFFFFCDEF
      ∧ after (mach c coh) (.sbfxN 6 4 5) (·.sr 6) = some 0xCDEF ∧ after (mach c coh) (.sbfi 6 4 5) (·.sr 6) = some 0xDEF00 := by decide

/-- An element 0x90 of VSRA.s8 shifted by 3 and by 11 gives 0xF2, of VSHR 0x12. -/
theorem test_vsra :
    let c := withV [(4 * 32, 0x9090), (5 * 32, 0x0B03)]
    after (mach c coh) (.vsra 3 4 (.v 5) .s8 np) (fun d => d.vl 3 0) = some 0xF2F2
      ∧ after (mach c coh) (.vshr 3 4 (.v 5) .s8 np) (fun d => d.vl 3 0) = some 0x1212 := by decide

/-- 100 + 100 of VADD.s8 is 127 with .sat, which sets SAT, and 0xC8 without, which sets IO. -/
theorem test_vadd :
    let c := withV [(5 * 32, 100), (6 * 32, 100)]
    after (mach c coh) (.vadd 4 5 (.v 6) .s8 np true) (fun d => d.vl 4 0) = some 127
      ∧ after (mach c coh) (.vadd 4 5 (.v 6) .s8 np false) (fun d => d.vl 4 0) = some 0xC8 := by decide

/-- VMIN.s32 of −1 and 1 is −1; VMIN.n32 is 1. -/
theorem test_vmin :
    let c := withV [(6 * 32, 0xFFFFFFFF), (7 * 32, 1)]
    after (mach c coh) (.vmin 5 6 (.v 7) .s32 np) (fun d => d.vl 5 0) = some 0xFFFFFFFF
      ∧ after (mach c coh) (.vmin 5 6 (.v 7) .n32 np) (fun d => d.vl 5 0) = some 1 := by decide

/-- VCLZ.n4 of 0b0010 gives 2, and 4 for the zero elements. -/
theorem test_vclz : after (mach (withV [(2 * 32, 2)]) coh) (.vclz 3 2 .n4 np) (fun d => d.vl 3 0) = some 0x4444444444444442 := by
  decide

/-- VDIV.s32: 5 by 0 gives the largest number, and the least by −1 wraps. -/
theorem test_vdiv :
    let c := withV [(6 * 32, 0x8000000000000005), (7 * 32, 0xFFFFFFFF00000000)]
    after (mach c coh) (.vdiv 5 6 (.v 7) .s32 np) (fun d => d.vl 5 0) = some 0x800000007FFFFFFF
      ∧ after (mach c coh) (.vrem 5 6 (.v 7) .s32 np) (fun d => d.vl 5 0) = some 5 := by decide

/-- VMOVI.s16 v2, 5. -/
theorem test_vmovi : after (mach crew coh) (.vmovi 2 5 .s16 np) (fun d => d.vl 2 31) = some 0x0005000500050005 := by decide

/-- VFMA.f32 is exact where VFMUL and VFADD would round: 2^−24. -/
theorem test_vfma :
    after (mach (withV [(5 * 32, 0xBF801000), (6 * 32, 0x3F800800), (7 * 32, 0x3F800800)]) coh) (.vfma 5 6 (.v 7) .f32 np 0)
      (fun d => d.vl 5 0 &&& 0xFFFFFFFF) = some 0x33800000 := by decide

/-- VFADD.bf16 of 1 and 2^−8: the tie goes to the even 0x3F80, and up to 0x3F81 under RUP and RNA. -/
theorem test_vfadd :
    let c := withV [(2 * 32, 0x3F80), (4 * 32, 0x3B80)]
    after (mach c coh) (.vfadd 3 2 (.v 4) .bf16 np 0) (fun d => d.vl 3 0 &&& 0xFFFF) = some 0x3F80
      ∧ after (mach c coh) (.vfadd 3 2 (.v 4) .bf16 np 4) (fun d => d.vl 3 0 &&& 0xFFFF) = some 0x3F81
      ∧ after (mach c coh) (.vfadd 3 2 (.v 4) .bf16 np 5) (fun d => d.vl 3 0 &&& 0xFFFF) = some 0x3F81 := by decide

/-- VSF.rsq of 4 is 0.5, and VSF.exp2 of 0.5 is 0x3FB504F3. -/
theorem test_vsf :
    let c := withV [(2 * 32, 0x3F00000040800000)]
    after (mach c coh) (.vsf 4 2 .rsq np) (fun d => d.vl 4 0 &&& 0xFFFFFFFF) = some 0x3F000000
      ∧ after (mach c coh) (.vsf 4 2 .exp2 np) (fun d => d.vl 4 0 >>> 32) = some 0x3FB504F3 := by decide +kernel

/-- VRED.add.f32 adds lanes in order: 2^24 + 1 + 1 is 2^24 with NX. -/
theorem test_vred :
    let c : Crew := { withV [(2 * 32, 0x4B800000), (2 * 32 + 1, 0x3F800000), (2 * 32 + 2, 0x3F800000)] with
      m := { crew.m with xm := 7 } }
    after (mach c coh) (.vred .add 3 2 .f32 np 0 false) (fun d => d.vl 3 1 &&& 0xFFFFFFFF) = some 0x4B800000 := by decide

/-- VHAD.h16 of ones: elements 0 and 16, the first of each half, are both 16 (R164). -/
theorem test_vhad :
    let c := withV ((List.range 8).map (fun l => (2 * 32 + l, 0x3F803F803F803F80)))
    after (mach c coh) (.vhad 6 2 false .bf16 np 0) (fun d => d.vl 6 0 &&& 0xFFFF) = some 0x4180
      ∧ after (mach c coh) (.vhad 6 2 false .bf16 np 0) (fun d => d.vl 6 4 &&& 0xFFFF) = some 0x4180 := by decide +kernel

/-- VHAD takes a vacant lane as zeros: of ones in eight lanes the four of lane 0 alone count (R346). -/
theorem test_vhad_vacant :
    let v := withV ((List.range 8).map (fun l => (2 * 32 + l, 0x3F803F803F803F80)))
    after (mach { v with m := { om := 1, xm := 1 } } coh) (.vhad 6 2 true .bf16 np 0) (fun d => d.vl 6 0 &&& 0xFFFF)
      = some 0x4080 := by decide +kernel

/-- A REGCLM behind a larger claim that waits does not take what is free (R35, R315). -/
theorem test_regclm :
    let c : Crew := { crew with size := 256 }
    let h : Cohort := { coh with sh := { coh.sh with free := 8 } }
    let s : State := { mach c h with
      crews := [c, { c with idx := 1, w := { kind := .regclm 16 } }, { c with idx := 2 }], clk := { State.reset.clk with cycle := 1 } }
    after s (.regclm 8) (fun d => BitVec.ofNat 64 d.size) = some 256 := by decide

/-- PCNT of three lanes. -/
theorem test_pcnt : after (mach { crew with r := { crew.r with p := [(2, 0xE)] } } coh) (.pcnt 7 2) (·.sr 7) = some 3 := by decide

/-! ## The assembler: words written out from the encoding tables -/

/-- The words of one line of source, with no symbols. -/
def wordsOf (src : String) : Option (List Nat) :=
  match Rhas.line (' ' :: src.toList) with
  | .ok ⟨_, some (m, ts)⟩ => (Rhas.unit { syms := [], last := true } 0 m ts).toOption
  | _ => none

/-- An immediate beyond its field takes a LIMM word with its upper part (R264). -/
theorem test_rhas_xp : wordsOf "SADDI s5, s0, 100000" = some [0xFC000030, 0x041406A0] := by decide

/-- A rounding suffix, a register above v63 and a negated predicate each take their XP field (R157, R264). -/
theorem test_rhas_vector : wordsOf "VFADD.f32.rz v130, v2, v3 if !p1" = some [0xFF034000, 0x7208103A] := by decide

/-- An XP field that the form does not accept is an error, whatever else is wrong with the form (R256, R264). -/
theorem test_rhas_refused : wordsOf "VCVT.f32.f32.sat v1, v2" = none := by decide

/-- TST names its data register first, as its entry writes it (R144). -/
theorem test_rhas_tst : wordsOf "TST.16 v10, sh[s16 : v2]" = some [0xCA281101] := by decide

/-- A VEXPR with its body of micro-operations (R263). -/
theorem test_rhas_vexpr : wordsOf "VEXPR.f32 v5, v1, v2, v3, expr(i0 i1 mul i2 add)"
    = some [0x8414082A, 0x060049CC, 0x50000000] := by decide

end Sys2Proof.Tests
end

section
/-! Every step keeps memory canonical (log entry 3): every operation of the model takes a canonical state to a canonical
one. A lemma has the name of the operation that it is about; for an operation whose result holds a state beside other
values, it is about that state. -/

namespace Sys2Proof.Machine

/-- Global memory is canonical, and so is every copy of it that a checkpoint keeps. An operation that changes neither
the bytes nor those copies keeps this by definition. -/
def State.Canonical (s : State) : Prop := s.memOk ∧ s.tiersOk

/-- The state that an outcome goes on to, if there is one, is canonical. -/
def CanonicalNext : Host.Outcome State Fault Refusal → Prop
  | .next t => t.Canonical
  | _ => True

/-- The state in which a turn ends, or in which its instruction is executed. -/
def Turn.state : Turn → State
  | .run _ s => s
  | .rest s => s

namespace State.Canonical

variable {s t : State}

/-! ## Control flow -/

theorem ite {p : Prop} [Decidable p] (hs : s.Canonical) (ht : t.Canonical) : (if p then s else t).Canonical := by
  split
  · exact hs
  · exact ht

theorem foldl {α : Type} {f : State → α → State} {l : List α} (h : s.Canonical)
    (hf : ∀ s a, s.Canonical → (f s a).Canonical) : (l.foldl f s).Canonical :=
  List.foldlRecOn l f h fun s hs a _ => hf s a hs

theorem crewOp {f : State → Crew → Cohort → State} (hf : ∀ c g, (f s c g).Canonical) :
    CanonicalNext (crewOp f s) := by
  unfold Machine.crewOp
  split
  · exact hf _ _
  · exact trivial

/-! ## Updates that leave memory as it is -/

/-- A state with the same bytes and the same kept copies. -/
theorem frame (h : s.Canonical) (bytes : t.mem.mem = s.mem.mem) (copies : t.host.tiers = s.host.tiers) :
    t.Canonical := by
  unfold State.Canonical State.memOk State.tiersOk
  rw [bytes, copies]
  exact h

theorem modCrew {u i f} (h : s.Canonical) : (s.modCrew u i f).Canonical := h

theorem putCrew {c} (h : s.Canonical) : (s.putCrew c).Canonical := h

theorem modCohort {u f} (h : s.Canonical) : (s.modCohort u f).Canonical := h

theorem modCrews {u f} (h : s.Canonical) : (s.modCrews u f).Canonical := h

theorem modInst {i f} (h : s.Canonical) : (s.modInst i f).Canonical := h

theorem dropItems {g} (h : s.Canonical) : (s.dropItems g).Canonical := h

theorem bumpId (h : s.Canonical) : s.bumpId.Canonical := h

theorem send {m} (h : s.Canonical) : (s.send m).Canonical := h

theorem dropFault (h : s.Canonical) : s.dropFault.Canonical := h

/-! ## Writes -/

theorem writeKey {k bs} (h : s.Canonical) : (s.writeKey k bs).Canonical := ⟨writeKey_memOk h.1 _ _, h.2⟩

/-- Answering the watches of a word that is written changes no byte. -/
theorem wrote {k n} (h : s.Canonical) : (s.wrote k n).Canonical :=
  h.frame (congrArg Global.mem (wrote_mem s k n).1) (congrArg Host_.tiers (wrote_mem s k n).2)

theorem perform {k bs} (h : s.Canonical) : (s.perform k bs).Canonical := h.writeKey.wrote

theorem setQsbWord {q k v} (h : s.Canonical) : (s.setQsbWord q k v).Canonical := h.writeKey

theorem setQueue {q st p} (h : s.Canonical) : (s.setQueue q st p).Canonical := h.setQsbWord

theorem bumpFqw {q} (h : s.Canonical) : (s.bumpFqw q).Canonical := h.setQsbWord

theorem copyFrame {a b} (h : s.Canonical) : (s.copyFrame a b).Canonical := ⟨copyFrame_memOk h.1 _ _, h.2⟩

theorem siltWrite {i x} (h : s.Canonical) : (s.siltWrite i x).Canonical := by
  unfold State.siltWrite
  split
  · exact h.writeKey.ite h
  · exact h

theorem performAll {k n ws} (h : s.Canonical) : (s.performAll k n ws).Canonical := h.foldl fun _ _ h => h.perform

theorem hostStore {r} (h : s.Canonical) : (s.hostStore r).Canonical := by
  unfold State.hostStore
  split
  · exact h.perform
  · exact h

/-! ## Waits and translation -/

theorem waitOn {c k} (h : s.Canonical) : (s.waitOn c k).Canonical := by
  unfold State.waitOn
  split
  · exact h
  · exact h

theorem fillTlb {c va} (h : s.Canonical) : (s.fillTlb c va).Canonical := by
  unfold State.fillTlb
  split
  · exact h
  · split
    · exact h
    · split
      · exact h
      · exact h

theorem sendPageReq {c p k pc} (h : s.Canonical) : (s.sendPageReq c p k pc).Canonical := ite h h

theorem startCow {c p pc} (h : s.Canonical) : (s.startCow c p pc).Canonical := by
  unfold State.startCow
  split
  · exact h
  · dsimp only
    split
    · exact h.sendPageReq
    · split
      · exact h
      · exact h.sendPageReq

theorem joinMerge {c p k pc} (h : s.Canonical) : (s.joinMerge c p k pc).Canonical :=
  ite h (ite h (ite (startCow h) (sendPageReq h)))

theorem advanceOverflow {d} (h : s.Canonical) : (s.advanceOverflow d).Canonical := by
  dsimp only [State.advanceOverflow]
  split
  · exact h
  · exact ite h (ite (startCow h) (sendPageReq h))

theorem advanceAll {d} (h : s.Canonical) : (s.advanceAll d).Canonical := h.foldl fun _ _ h => h.advanceOverflow

theorem noteMalformed {c va a} (h : s.Canonical) : (s.noteMalformed c va a).Canonical := by
  unfold State.noteMalformed
  split
  · exact h
  · exact h

theorem devClear {w c va} (h : s.Canonical) : (s.devClear w c va).Canonical := h.ite h.noteMalformed

theorem devAsk {c va a} (h : s.Canonical) : (s.devAsk c va a).Canonical := by
  unfold State.devAsk
  split
  · exact h
  · exact h.joinMerge
  · exact h

theorem devAskQ {w c va a} (h : s.Canonical) : (s.devAskQ w c va a).Canonical := h.devAsk

/-! ## The register pool -/

theorem reform {u i} (h : s.Canonical) : (s.reform u i).Canonical := by
  unfold State.reform
  split
  · dsimp only
    split
    · exact h
    · split
      · exact h
      · exact h
  · exact h

theorem grantClaims {u} (h : s.Canonical) : (s.grantClaims u).Canonical := by
  refine List.foldlRecOn (motive := fun x : State × Bool => x.1.Canonical) _ _ h fun x hx k _ => ?_
  split
  · exact hx
  · split
    · exact reform hx
    · exact hx

/-! ## Records and dependency counters -/

theorem enqueue? {i r b} (h : s.Canonical) (e : s.enqueue? i r b = some t) : t.Canonical := by
  unfold State.enqueue? at e
  split at e
  · cases e
  · obtain ⟨q, -, rfl⟩ := Option.map_eq_some_iff.1 e
    dsimp only
    split
    · exact siltWrite h
    · exact h

theorem enqueueAll {i l} (h : s.Canonical) (e : s.enqueueAll i l = some t) : t.Canonical := by
  induction l generalizing s with
  | nil => cases e; exact h
  | cons r l ih =>
    unfold State.enqueueAll at e
    split at e
    · exact ih (h.enqueue? ‹_›) e
    · cases e

theorem fire {i n} (h : s.Canonical) : (s.fire i n).Canonical := by
  unfold State.fire
  split
  · exact h
  · split
    · exact h
    · dsimp only
      split
      · rename_i room
        have queued := h.enqueue? (Option.ite_none_left_eq_some.1 room).2
        exact queued
      · exact h

theorem decrement {i n v} (h : s.Canonical) : (s.decrement i n v).Canonical := by
  unfold State.decrement
  split
  · exact h
  · exact ite h (ite (fire h) h)

/-! ## Fault records, and cohorts and instances that end -/

theorem imageDone {q v} (h : s.Canonical) : (s.imageDone q v).Canonical := ite h h

theorem tellHost {c k ws} (h : s.Canonical) : (s.tellHost c k ws).Canonical := ite h (foldl h fun _ _ h => h)

theorem writeFault {q ws} (h : s.Canonical) : (s.writeFault q ws).Canonical := by
  unfold State.writeFault
  dsimp only
  split
  · exact h.tellHost.writeKey.bumpFqw.imageDone
  · exact h.devClear.dropFault.imageDone
  · exact h.devAsk.frame rfl rfl
  · split
    · exact h
    · exact (foldl h.bumpId fun _ _ h => h.send).frame rfl rfl

theorem flushFaults (h : s.Canonical) : s.flushFaults.Canonical := foldl h fun _ _ h => h.writeFault

theorem sweepDead {u} (h : s.Canonical) : (s.sweepDead u).Canonical := by
  unfold State.sweepDead
  split
  · exact ite h h
  · exact h

theorem dropStuck {u} (h : s.Canonical) : (s.dropStuck u).Canonical := by
  unfold State.dropStuck
  split
  · exact h
  · exact ite h h

theorem tryRetire {u} (h : s.Canonical) : (s.tryRetire u).Canonical := by
  unfold State.tryRetire
  split
  · exact h
  · exact ite h h

theorem afterItem {u} (h : s.Canonical) : (s.afterItem u).Canonical := h.dropStuck.sweepDead.tryRetire

theorem endCohorts {n} (h : s.Canonical) : (s.endCohorts n).Canonical := by
  have dropped : ((s.cohorts.filter (fun k => k.serial == n)).foldl (fun s k => s.dropItems k) s).Canonical :=
    foldl h fun _ _ h => h
  exact foldl dropped fun _ _ h => sweepDead h

theorem dropInst {i n} (h : s.Canonical) : (s.dropInst i n).Canonical := by
  unfold State.dropInst
  split
  · exact h
  · exact h

theorem haltInst {i n} (h : s.Canonical) : (s.haltInst i n).Canonical := by
  induction n generalizing s i with
  | zero => exact h
  | succ n ih =>
    unfold State.haltInst
    split
    · exact h
    · exact foldl h.endCohorts.dropInst fun _ _ h => ih h.writeFault

theorem haltWith {i ws} (h : s.Canonical) : (s.haltWith i ws).Canonical := by
  unfold State.haltWith
  split
  · exact h
  · exact ite h h.writeFault.haltInst

theorem refuseHalt {i d n} (h : s.Canonical) : (s.refuseHalt i d n).Canonical := h.haltWith

theorem haltCtxs {l} (h : s.Canonical) : (s.haltCtxs l).Canonical := by
  have ended := foldl (f := fun (s : State) (a : Inst) => (s.endCohorts a.l.serial).dropInst a.slot 2)
    (l := s.insts.filter (fun a => l.contains a.l.ctx && !a.l.ending)) h fun _ _ h => h.endCohorts.dropInst
  exact foldl ended fun _ _ h => h.haltWith

theorem completionWritten {n} (h : s.Canonical) : (s.completionWritten n).Canonical := by
  unfold State.completionWritten
  split
  · exact h
  · dsimp only
    split
    · exact dropInst h
    · exact dropInst h

theorem completionFailed {n k} (h : s.Canonical) : (s.completionFailed n k).Canonical := by
  unfold State.completionFailed
  split
  · exact h
  · exact h.writeFault.dropInst

theorem undoLaunch {n} (h : s.Canonical) : (s.undoLaunch n).Canonical := by
  unfold State.undoLaunch
  split
  · exact h.dropInst
  · exact h

/-! ## Traps and aborts -/

theorem abortCohort {g k} (h : s.Canonical) : (s.abortCohort g k).Canonical := by
  unfold State.abortCohort
  split
  · exact h
  · extract_lets replay slot saved image told
    have hsaved : saved.Canonical := by
      clear_value slot
      cases slot
      · exact h
      · exact h.writeKey.modInst
    have htold : told.Canonical := hsaved.dropItems.writeFault
    clear_value told
    exact ite (sweepDead htold) htold.haltInst

theorem settle {u} (h : s.Canonical) : (s.settle u).Canonical := by
  unfold State.settle
  split
  · split
    · exact ite h.abortCohort h
    · exact h
  · exact h

theorem startAbort {u k} (h : s.Canonical) : (s.startAbort u k).Canonical := settle h

theorem takeTrap {c g k} (h : s.Canonical) : (s.takeTrap c g k).Canonical := by
  unfold State.takeTrap
  extract_lets c' n s'
  split
  · exact ite h (startAbort h)
  · have entered : (if k.cause = 16 then (s'.putCrew (c'.enter k n.handler)).modCohort g.uid (fun x =>
        { x with run := 0, expired := true }) else s'.putCrew (c'.enter k n.handler)).Canonical := ite h h
    exact ite (ite entered entered) (startAbort h)

theorem illegal {c g} (h : s.Canonical) : (s.illegal c g).Canonical := h.takeTrap

theorem orderTrap {c g k} (h : s.Canonical) : (s.orderTrap c g k).Canonical := h.takeTrap

theorem finishAt {c g pc k} (h : s.Canonical) : (s.finishAt c g pc k).Canonical := by
  unfold State.finishAt
  dsimp only
  split
  · exact h.takeTrap
  · exact h

theorem finish {c g k} (h : s.Canonical) : (s.finish c g k).Canonical := h.finishAt

theorem testDeadlock {u} (h : s.Canonical) : (s.testDeadlock u).Canonical := by
  unfold State.testDeadlock
  dsimp only
  split
  · exact h
  · split
    · refine ite h ?_
      split
      · exact h.takeTrap
      · exact ite h (startAbort h)
    · exact h

theorem testBars {u} (h : s.Canonical) : (s.testBars u).Canonical := by
  unfold State.testBars
  dsimp only
  split
  · exact h
  · exact h

theorem tret {c g} (h : s.Canonical) : (s.tret c g).Canonical := by
  unfold State.tret
  generalize c.h.w.kind = w
  cases w <;> exact finishAt (ite h h)

theorem releasing {c g n} (h : s.Canonical) (ht : t.Canonical) : (s.releasing c g n t).Canonical := by
  unfold State.releasing
  split
  · exact h.orderTrap
  · split
    · exact ht
    · exact h
    · exact h.waitOn

/-! ## Requests, loads and stores of a crew -/

theorem newRemote {d v c w va n k} (h : s.Canonical) : (s.newRemote d v c w va n k).1.Canonical := h

theorem newHost {c x w va n k} (h : s.Canonical) : (s.newHost c x w va n k).1.Canonical := h

theorem loadParts {d c i u ps l} (h : s.Canonical) : (s.loadParts d c i u ps l).1.Canonical := by
  unfold State.loadParts
  split
  rename_i e
  split at e
  · split at e
    · cases e; exact h
    · split at e <;> (cases e; exact h)
  · split at e <;> (cases e; exact h)
  · cases e; exact h

theorem storeLane {c g i u l} (h : s.Canonical) : (s.storeLane c g i u l).Canonical := by
  refine List.foldlRecOn (motive := fun x : State × Option Nat => x.1.Canonical) _ _ h fun x hx w _ => ?_
  extract_lets
  split
  rename_i e
  split at e
  · split at e <;> (cases e; exact hx)
  · split at e <;> (cases e; exact hx)
  · cases e; exact hx

theorem logPage {c g u p ls} (h : s.Canonical) : (s.logPage c g u p ls).Canonical := by
  unfold State.logPage
  dsimp only
  split
  · exact joinMerge h
  · exact h

/-- The loads of some lanes, one after the other. -/
theorem loadLanes {d c i u ps} {ls : List (Nat × Word × Lane)} (h : s.Canonical) :
    (ls.foldl (fun (x : State × List Part) l => x.1.loadParts d c i u x.2 l) (s, ps)).1.Canonical :=
  List.foldlRecOn (motive := fun x : State × List Part => x.1.Canonical) ls _ h fun _ h _ _ => h.loadParts

theorem memUnit {c g u pre} (h : s.Canonical) : (s.memUnit c g u pre).Canonical := by
  unfold State.memUnit
  refine ite h ?_
  split
  · exact h.waitOn
  · refine ite h.waitOn ?_
    extract_lets _ _ _ _ _ _ _ _ _ _ _ _ _ _ _ loaded _ _ logged s1
    have hloaded : loaded.Canonical := ite (ite h (loadLanes h.bumpId)) (foldl h fun _ _ h => h.storeLane)
    have hlogged : logged.Canonical := foldl hloaded fun _ _ h => h.logPage
    have hs1 : s1.Canonical := ite hlogged.modCohort hlogged
    exact ite (ite (ite hs1.waitOn hs1) hs1.finish) (waitOn (foldl hs1 fun _ _ h => h.joinMerge))

theorem askMarl {c g va n d k} (h : s.Canonical) : (s.askMarl c g va n d k).Canonical := by
  unfold State.askMarl
  refine ite h ?_
  split
  · exact h
  · exact h

/-- Marl entries that are not at hand: the state in which the crew waits for them. -/
theorem marlEntries_wait {c g n vas k} (h : s.Canonical) (e : s.marlEntries c g n vas k = .inl t) : t.Canonical := by
  unfold State.marlEntries at e
  dsimp only at e
  split at e
  · cases e; exact h
  · split at e
    · cases e; exact waitOn (foldl h fun _ _ h => h.joinMerge)
    · split at e
      · cases e
      · cases e; exact waitOn (foldl h fun _ _ h => h.askMarl)

/-- Marl entries at hand: the state that keeps them. -/
theorem marlEntries_kept {c g n vas k x} (h : s.Canonical) (e : s.marlEntries c g n vas k = .inr x) :
    x.1.Canonical := by
  unfold State.marlEntries at e
  dsimp only at e
  split at e
  · cases e
  · split at e
    · cases e
    · split at e
      · cases e; exact h
      · cases e

theorem endMarl {c} (h : s.Canonical) : (s.endMarl c).Canonical := h

theorem endWatch {c} (h : s.Canonical) : (s.endWatch c).Canonical := h

theorem waitaEnd {c g d v k} (h : s.Canonical) : (s.waitaEnd c g d v k).Canonical := ite h h.endWatch.finish

theorem waitaFar {c g k d b v va} (h : s.Canonical) (ht : t.Canonical) : (s.waitaFar c g k d b v va t).Canonical := by
  unfold State.waitaFar
  split
  · exact ht.waitOn
  · split
    · exact h.waitOn
    · exact ite h.waitaEnd (ite h.waitaEnd h.waitOn)
    · exact h.endWatch.finish

/-! ## Records that leave a crew -/

theorem askFor {d g n e} (h : s.Canonical) : (s.askFor d g n e).Canonical := ite h h

theorem sendOut {o} (h : s.Canonical) : (s.sendOut o).Canonical := ite h h

theorem sendRecord {d v g i n r} (h : s.Canonical) : (s.sendRecord d v g i n r).Canonical :=
  ite (sendOut h) (ite (askFor h) h)

theorem emitGo {f : State → Crew → Cohort → State} {c g l} (hf : ∀ s c g, s.Canonical → (f s c g).Canonical)
    (h : s.Canonical) : (State.emitGo f s c g l).Canonical := by
  unfold State.emitGo
  split
  · exact hf _ _ _ h
  · extract_lets r near held more w c1 went here die tag
    have hwent : ∀ t : State, t.Canonical → (went t).Canonical := fun t ht => ite (hf _ _ _ ht) ht
    refine ite ?_ (ite h.waitOn (hwent _ h.sendRecord))
    split
    · exact h
    · refine ite h.refuseHalt (ite h.waitOn ?_)
      split
      · exact hwent _ (h.enqueue? ‹_›)
      · exact h.waitOn

theorem serveGrants (h : s.Canonical) : s.serveGrants.Canonical := by
  refine List.foldlRecOn (motive := fun x : State × List (Nat × Nat × Nat) => x.1.Canonical) _ _ h fun x hx k _ => ?_
  dsimp only
  split
  · exact hx
  · split
    · exact hx
    · split
      · exact hx
      · exact hx

/-! ## Barriers -/

theorem arrive {c g b m} (h : s.Canonical) : (s.arrive c g b m).Canonical := testBars h

theorem barWait {c g b} (h : s.Canonical) : (s.barWait c g b).Canonical := by
  unfold State.barWait
  split
  · exact ite h.waitOn.testDeadlock h.finish
  · exact h

/-! ## Items of the engines -/

theorem putItem {i} (h : s.Canonical) : (s.putItem i).Canonical := h

theorem enqueueItem {c g i} (h : s.Canonical) : (s.enqueueItem c g i).Canonical := finish h

theorem acceptItem {c g ws i} (h : s.Canonical) : (s.acceptItem c g ws i).Canonical := releasing h (ite h h.enqueueItem)

theorem itemBad {i c k va a} (h : s.Canonical) : (s.itemBad i c k va a).Canonical := h.noteMalformed.putItem

theorem itemStop {α : Type} {i c} {r : Rd α} (h : s.Canonical) : (s.itemStop i c r).Canonical := by
  unfold State.itemStop
  split
  · exact h
  · exact h.devAsk.putItem
  · exact h.itemBad
  · exact ite h h
  · exact h

theorem lineDone {i n a k} (h : s.Canonical) : (s.lineDone i n a k).Canonical := ite h h

theorem itemStore {i j c va bs} (h : s.Canonical) : (s.itemStore i j c va bs).Canonical := by
  unfold State.itemStore
  dsimp only
  split
  · exact h.itemBad
  · exact h
  · exact h
  · split
    · exact h.devAsk.putItem
    · exact h.devAsk.putItem
    · exact h.itemBad
    · exact ite h h.perform.lineDone.putItem

theorem fillScale {i c l m} (h : s.Canonical) : (s.fillScale i c l m).1.Canonical := by
  induction m generalizing s with
  | nil => exact h
  | cons a m ih =>
    unfold State.fillScale
    split
    · exact ih h
    · split
      · exact ih h
      · exact h
      · exact h
      · exact h

theorem fillScale_of_eq {i c l m r} (h : s.Canonical) (e : s.fillScale i c l m = (t, r)) : t.Canonical := by
  have filled := h.fillScale (i := i) (c := c) (l := l) (m := m)
  rwa [e] at filled

theorem runStep {i g r} (h : s.Canonical) : (s.runStep i g r).Canonical := h

theorem ranOn {i} (h : s.Canonical) : (s.ranOn i).Canonical := ite h.afterItem h

theorem startTask {c i o f} (hf : ∀ s j, s.Canonical → (f s j).Canonical) (h : s.Canonical) :
    (s.startTask c i o f).Canonical := by
  unfold State.startTask
  split
  · exact h
  · exact ite (hf _ _ h) h

theorem jobRead {c i n} (h : s.Canonical) : (s.jobRead c i n).Canonical := by
  induction n generalizing s with
  | zero => exact h
  | succ n ih =>
    unfold State.jobRead
    split
    · exact h
    · split
      · exact h
      · refine ite h ?_
        split
        · split
          · rename_i filled
            have hfilled := h.fillScale_of_eq filled
            split
            · exact ih hfilled.putItem
            · exact hfilled.itemStop
          · exact (h.fillScale_of_eq ‹_›).itemStop
        · exact h.itemStop

theorem jobWrite1 {i g} (h : s.Canonical) : (s.jobWrite1 i g).Canonical := by
  unfold State.jobWrite1
  refine ite h ?_
  split
  · exact putItem (modCohort (ite h h))
  · exact ite (putItem (lineDone h)) (ite (putItem (lineDone h)) h.itemStore)

theorem jobWrite {c i n} (h : s.Canonical) : (s.jobWrite c i n).Canonical := by
  induction n generalizing s with
  | zero => exact h
  | succ n ih =>
    unfold State.jobWrite
    split
    · exact h
    · split
      · exact h
      · exact ite (ih h.jobWrite1) h

theorem jobPart {c i o n} (h : s.Canonical) : (s.jobPart c i o n).Canonical := by
  unfold State.jobPart
  split
  · exact h
  · exact ite h (ite h (ite h.jobRead h.jobWrite.ranOn))

/-! ## Answers of pages and requests -/

theorem watchFor {v r k} (h : s.Canonical) : (s.watchFor v r k).Canonical := h

theorem setAns {r f} (h : s.Canonical) : (s.setAns r f).Canonical := h

theorem endRemote {r} (h : s.Canonical) : (s.endRemote r).Canonical := h

theorem shoot {c p} (h : s.Canonical) : (s.shoot c p).Canonical := h

theorem storeSeen {e} (h : s.Canonical) : (s.storeSeen e).Canonical := h

theorem storeFail {f} (h : s.Canonical) : (s.storeFail f).Canonical := by
  unfold State.storeFail
  split
  · refine ite ?_ (ite h.takeTrap h)
    split
    · exact h.haltWith
    · exact h
  · split
    · exact h.haltWith
    · exact h

theorem logFail {e k} (h : s.Canonical) : (s.logFail e k).Canonical := ite h h.storeFail

theorem dropFaults {c p} (h : s.Canonical) : (s.dropFaults c p).Canonical := foldl h fun _ _ h => h.dropFault.imageDone

theorem serve {r} (h : s.Canonical) : (s.serve r).Canonical := by
  unfold State.serve
  extract_lets a fail hold
  have hhold : hold.Canonical := h.devAsk.frame rfl rfl
  split
  · exact h
  · exact h
  · exact h
  · refine ite h ?_
    split
    · exact hhold
    · exact hhold
    · exact send (ite h h)
    · refine ite h ?_
      split
      · exact ite h (ite (watchFor (foldl h fun _ _ h => h)) (foldl h fun _ _ h => h))
      · exact h.performAll.send
      · exact ite h h.perform.send

theorem reserve {c p} (h : s.Canonical) : (s.reserve c p).Canonical := foldl h fun _ _ h => h.serve

theorem replayLane {e k l} (h : s.Canonical) : (s.replayLane e k l).Canonical := by
  unfold State.replayLane
  extract_lets
  split
  rename_i e
  split at e <;> (cases e; exact h)

theorem replay {c p} (h : s.Canonical) : (s.replay c p).Canonical := by
  refine foldl h fun s e h => ?_
  dsimp only
  split
  · exact h
  · exact h.joinMerge
  · exact logFail (ite h h)
  · split
    · exact foldl h fun _ _ h => h.replayLane
    · exact logFail (foldl h fun _ _ h => h.replayLane)

theorem pageGood {c p} (h : s.Canonical) : (s.pageGood c p).Canonical := flushFaults (reserve (replay h))

theorem pageBad {c p} (h : s.Canonical) : (s.pageBad c p).Canonical :=
  flushFaults (dropFaults (foldl (foldl h fun _ _ h => h.logFail) fun _ _ h => h))

theorem answerPage {d p c n b} (h : s.Canonical) : (s.answerPage d p c n b).Canonical :=
  ite (ite (pageBad (advanceAll h)) (pageGood (advanceAll h))) h

theorem killCtx {c} (h : s.Canonical) : (s.killCtx c).Canonical := by
  unfold State.killCtx
  split
  · exact h
  · exact flushFaults (advanceAll (advanceAll (foldl h fun _ _ h => h)))

theorem partGone {l p} (h : s.Canonical) : (s.partGone l p).Canonical := ite (tryRetire h) h

theorem partValue {l p v} (h : s.Canonical) : (s.partValue l p v).Canonical := partGone h

theorem partFault {l p k d b} (h : s.Canonical) : (s.partFault l p k d b).Canonical := partGone h

theorem returnParts {i g l} (h : s.Canonical) : (s.returnParts i g l).Canonical := by
  induction l generalizing s with
  | nil => exact h
  | cons a l ih =>
    unfold State.returnParts
    split
    · exact h
    · exact ih (partValue h)

theorem storeGone {e} (h : s.Canonical) : (s.storeGone e).Canonical := tryRetire h

theorem storeAnswered {e v b d} (h : s.Canonical) : (s.storeAnswered e v b d).Canonical :=
  modCrew (ite h (ite (ite h h.storeFail) h))

theorem laneStored {r f} (hf : ∀ s e, s.Canonical → (f s e).Canonical) (h : s.Canonical) :
    (s.laneStored r f).Canonical := by
  unfold State.laneStored
  split
  · exact h
  · exact foldl (hf _ _ h).storeGone fun _ _ h => h.storeGone

theorem eachPart {l r f} (hf : ∀ s l p, s.Canonical → (f s l p).Canonical) (h : s.Canonical) :
    (s.eachPart l r f).Canonical := by
  unfold State.eachPart
  split
  · exact h
  · refine foldl h fun s p h => ?_
    split
    · exact h
    · exact hf _ _ _ h

theorem itemAnswer {r c i b p v f} (h : s.Canonical) : (s.itemAnswer r c i b p v f).Canonical := by
  unfold State.itemAnswer
  split
  · exact h
  · exact ite h h

theorem recordSent {q r b} (h : s.Canonical) : (s.recordSent q r b).Canonical :=
  flushFaults (imageDone (ite h.endRemote.bumpFqw h.endRemote.dropFault))

theorem servedAnswer {r v i k b x f} (h : s.Canonical) : (s.servedAnswer r v i k b x f).Canonical := by
  unfold State.servedAnswer
  dsimp only
  split
  · exact h
  · refine ite h ?_
    split
    · exact ite (watchFor (foldl h fun _ _ h => h)) (foldl h fun _ _ h => h)
    · exact h.endRemote.performAll.send
    · exact h.endRemote.perform.send

theorem renewHost {r u i c} (h : s.Canonical) : (s.renewHost r u i c).Canonical := by
  unfold State.renewHost
  split
  · exact h
  · exact h

theorem shinvDone {i} (h : s.Canonical) : (s.shinvDone i).Canonical := by
  unfold State.shinvDone
  split
  · exact h
  · refine ite h ?_
    dsimp only
    split
    · exact afterItem h
    · exact h
    · exact h

/-! ## Placement, eviction and checkpoints -/

theorem gridAnswer {a n e d} (h : s.Canonical) (ht : t.Canonical) {x} (eq : s.gridAnswer a n e d t = .wait x) :
    x.Canonical := by
  unfold State.gridAnswer at eq
  split at eq
  · cases eq; exact ht
  · split at eq
    · cases eq; exact h
    · split at eq
      · split at eq <;> cases eq
      · split at eq <;> cases eq

theorem gridWord {a n e va} (h : s.Canonical) (eq : s.gridWord a n e va = .wait t) : t.Canonical := by
  unfold State.gridWord at eq
  dsimp only at eq
  split at eq
  · cases eq
  · split at eq
    · cases eq
    · split at eq
      · split at eq
        · exact h.gridAnswer h.newHost eq
        · cases eq
      · cases eq
      · cases eq; exact h.devAskQ
      · exact h.gridAnswer h.newRemote eq

theorem takeGrid {i n e k} (h : s.Canonical) : (s.takeGrid i n e k).Canonical := by
  induction k generalizing s with
  | zero => exact h
  | succ k ih =>
    unfold State.takeGrid
    split
    · exact h
    · extract_lets nd q
      split
      · extract_lets w0 s1 mem taken keep grid form
        have hform : ∀ w, (form w).Canonical := fun w => ite (ih h) (ite h h)
        refine ite (haltWith h) (ite (hform _) ?_)
        split
        · exact hform _
        · exact h.gridWord ‹_›
        · exact haltWith (devClear h)
      · exact h

theorem formGrids {d} (h : s.Canonical) : (s.formGrids d).Canonical := by
  refine foldl h fun s p h => ?_
  split
  · exact h
  · exact ite h.takeGrid h

theorem spawn {a n e k l x y z p} (h : s.Canonical) : (s.spawn a n e k l x y z p).Canonical :=
  foldl h fun _ _ h => h.reform

theorem resume {g k} (h : s.Canonical) : (s.resume g k).Canonical := foldl h fun _ _ h => h.reform

theorem tryResume {d u} (h : s.Canonical) (e : s.tryResume d u = some t) : t.Canonical := by
  unfold State.tryResume at e
  split at e
  · cases e
  · split at e
    · cases e
    · obtain ⟨k, -, rfl⟩ := Option.map_eq_some_iff.1 e
      exact h.resume

theorem tryPlace {d i n k} (h : s.Canonical) (e : s.tryPlace d i n k = some t) : t.Canonical := by
  unfold State.tryPlace at e
  split at e
  · cases e
  · extract_lets node s1 at e
    have h1 : s1.Canonical := h
    clear_value s1
    split at e
    · cases e
    · split at e
      · cases e
      · split at e
        · cases e; exact modInst (spawn h1)
        · split at e
          extract_lets s2 at e
          have h2 : s2.Canonical := h1
          clear_value s2
          split at e
          · cases e; exact h2.haltWith
          · cases e; exact h2.spawn

theorem placeMany {d i n e k} {w : Walked} (h : w.s.Canonical) : (placeMany d i n e k w).s.Canonical := by
  induction k generalizing w with
  | zero => exact h
  | succ k ih =>
    unfold Machine.placeMany
    split
    · exact h
    · split
      · exact h
      · have placed := h.tryPlace ‹_›
        extract_lets grid w1
        split
        · exact ih placed
        · exact placed

theorem walkOne {d b} {w : Walked} (h : w.s.Canonical) : (walkOne d w b).s.Canonical := by
  unfold Machine.walkOne
  split
  · exact h
  · split
    · split
      · exact h.tryResume ‹_›
      · exact h
    · exact placeMany h

theorem land {d} (h : s.Canonical) : (s.land d).Canonical := foldl h fun _ _ h => h

theorem serveAsks {d} (h : s.Canonical) : (s.serveAsks d).Canonical := by
  refine foldl h fun s k h => ?_
  split
  · exact h
  · refine ite h ?_
    split
    · exact h
    · exact h

theorem lpBack {g} (h : s.Canonical) : (s.lpBack g).Canonical := by
  refine foldl h fun s x h => ?_
  split
  · exact ite h h.perform
  · exact h
  · exact h.devClear
  · exact h

theorem lpAsk {g} (h : s.Canonical) (e : s.lpAsk g = some t) : t.Canonical := by
  unfold State.lpAsk at e
  split at e
  · cases e
  · cases e; exact foldl h fun _ _ h => h.devAskQ

theorem evict {g a k} (h : s.Canonical) : (s.evict g a k).Canonical := modInst (modCohort (modCrews h.perform))

theorem saveTrap {g} (h : s.Canonical) (e : s.saveTrap g = some t) : t.Canonical := by
  unfold State.saveTrap at e
  dsimp only at e
  split at e
  · split at e
    · cases e; exact h.takeTrap
    · cases e
  · split at e
    · cases e; exact h
    · cases e

theorem saveNow {g} (h : s.Canonical) : (s.saveNow g).Canonical := by
  unfold State.saveNow
  dsimp only
  refine ite (tryRetire h) (ite h ?_)
  split
  · exact h.saveTrap ‹_›
  · exact h
  · split
    · exact h.lpAsk (Option.ite_none_left_eq_some.1 ‹_›).2
    · have back : (if g.back then s else s.lpBack g).Canonical := ite h h.lpBack
      exact ite back back.evict

theorem beginSave {p l} (h : s.Canonical) (e : s.beginSave p l = some t) : t.Canonical := by
  unfold State.beginSave at e
  split at e
  · cases e; exact h
  · split at e
    · split at e
      · cases e; exact h
      · cases e
    · cases e

theorem checkSave (h : s.Canonical) : s.checkSave.Canonical := by
  refine foldl h fun s g h => ?_
  split
  · exact ite h.saveNow h
  · exact h

theorem spill {b k} (h : s.Canonical) : (s.spill b k).Canonical := by
  induction k generalizing s with
  | zero => exact h
  | succ k ih =>
    unfold State.spill
    refine ite h ?_
    split
    · exact h
    · split
      · exact h
      · exact ih (foldl h fun _ _ h => h.siltWrite)

theorem recTaken {v d n g b r} (h : s.Canonical) : (s.recTaken v d n g b r).Canonical := h

theorem portDown {p} (h : s.Canonical) : (s.portDown p).Canonical := foldl h fun _ _ h => h.sendOut

/-! ## Packets and launches -/

theorem qAnswer {q va n x} (h : s.Canonical) {ask} (ha : ask.Canonical) (e : s.qAnswer q va n ask = .wait x) :
    x.Canonical := by
  unfold State.qAnswer at e
  split at e
  · cases e; exact ha
  · split at e
    · cases e; exact h
    · split at e
      · cases e
      · split at e <;> cases e

theorem qRead {q va} (h : s.Canonical) (e : s.qRead q va = .wait t) : t.Canonical := by
  unfold State.qRead at e
  dsimp only at e
  split at e
  · split at e
    · exact h.qAnswer h.newHost e
    · cases e
  · cases e
  · cases e; exact h.devAskQ
  · exact h.qAnswer h.newRemote e

theorem qReads {q va n} (h : s.Canonical) (e : s.qReads q va n = .wait t) : t.Canonical := by
  induction n generalizing va with
  | zero => cases e
  | succ n ih =>
    unfold State.qReads at e
    split at e
    · cases e
    · cases e; exact h.qRead ‹_›
    · split at e
      · cases e
      · cases e
      · cases e; exact ih ‹_›

end State.Canonical

/-- Every state that an access of the walker comes to is canonical. -/
def QRes.Canonical : QRes State → Prop
  | .ok t | .wait t => t.Canonical
  | .fail _ _ => True

/-- Every state that reading for a launch comes to is canonical. -/
def LRes.Canonical : LRes State → Prop
  | .ok t | .wait t => t.Canonical
  | .refuse _ => True

/-- Every state that processing a packet comes to is canonical. -/
def PRes.Canonical : PRes → Prop
  | .done t | .wait t | .bad t _ _ => t.Canonical

namespace State.Canonical

variable {s t : State}

theorem qWritten {r} (h : s.Canonical) (hw : ∀ x, r = .wait x → x.Canonical) : (s.qWritten r).Canonical := by
  unfold State.qWritten
  split
  · exact h
  · exact trivial
  · exact hw _ rfl

theorem qWrite {q va v} (h : s.Canonical) : (s.qWrite q va v).Canonical := by
  unfold State.qWrite
  dsimp only
  split
  · split
    · exact h.qWritten fun _ => h.qAnswer h.newHost
    · exact h.perform
  · trivial
  · exact h.devAskQ
  · exact h.qWritten fun _ => h.qAnswer h.newRemote

theorem consume {q} (h : s.Canonical) : (s.consume q).Canonical := by
  unfold State.consume
  split
  have set : ∀ {p}, (((s.qForget q).setStack q ‹_›).setQueue q 0 p).Canonical := setQueue h
  exact set.frame rfl rfl

theorem qStall {q} (h : s.Canonical) : (s.qStall q).Canonical := h

theorem malformed {q p r a} (h : s.Canonical) : (s.malformed q p r a).Canonical := by
  unfold State.malformed
  extract_lets told queues ctxs stopped finish rest host listed
  have htold : told.Canonical := h.writeFault
  have hstopped : stopped.Canonical := foldl htold fun _ _ h => setQueue h
  have hlisted : listed.Canonical := hstopped.frame rfl rfl
  exact haltCtxs (foldl hlisted fun _ _ h => h.killCtx)

theorem packet {q mine run} (h : s.Canonical) (hr : ∀ w va, (run s w va).Canonical) :
    (s.packet q mine run).Canonical := by
  unfold State.packet
  refine ite h ?_
  extract_lets va
  split
  · exact (h.qReads ‹_›).qStall
  · exact h.devClear.malformed
  · split
    · exact h.malformed
    · refine ite h ?_
      have ran := hr ‹_› va
      split <;> (rename_i e; rw [e] at ran)
      · exact ran
      · exact State.Canonical.qStall ran
      · exact State.Canonical.malformed (State.Canonical.devClear ran)

theorem writeOp {q w} (h : s.Canonical) : (s.writeOp q w).Canonical := by
  unfold State.writeOp
  have written := h.qWrite (q := q) (va := w.getD 1 0) (v := w.getD 2 0)
  split <;> (rename_i e; rw [e] at written)
  · exact consume written
  · exact written
  · exact h

theorem launchWrite {q va n k} (h : s.Canonical) : (s.launchWrite q va n k).Canonical := by
  unfold State.launchWrite
  have written := h.qWrite (q := q) (va := va) (v := launchWord n k)
  split <;> (rename_i e; rw [e] at written)
  · exact consume written
  · exact written
  · exact undoLaunch h

theorem readImage {q va} (h : s.Canonical) (e : s.readImage q va = .wait t) : t.Canonical := by
  unfold State.readImage at e
  split at e
  · cases e; exact h.qReads ‹_›
  · cases e
  · dsimp only at e
    split at e
    · cases e; exact h.qReads ‹_›
    · cases e
    · split at e <;> cases e

theorem readInit {q va n l} (h : s.Canonical) (e : s.readInit q va n l = .wait t) : t.Canonical := by
  unfold State.readInit at e
  split at e
  · cases e; exact h.qReads ‹_›
  · cases e
  · dsimp only at e
    split at e <;> cases e

theorem tryLaunch {q w} (h : s.Canonical) : (s.tryLaunch q w).Canonical := by
  unfold State.tryLaunch
  dsimp only
  split
  · trivial
  · exact h.readImage ‹_›
  · split
    · trivial
    · exact h.readInit ‹_›
    · split
      · trivial
      · split
        · trivial
        · split
          · trivial
          · split
            · trivial
            · split
              · trivial
              · split
                · have listed : ∀ a, State.Canonical { s with insts := s.insts ++ [a] } := fun _ => h
                  exact (listed _).enqueueAll ‹_›
                · trivial

theorem noteLists (h : s.Canonical) : s.noteLists.Canonical := ite h (foldl h fun _ _ h => h.setQueue)

theorem agentWrite {k bs} (h : s.Canonical) : (s.agentWrite k bs).Canonical := ite h.perform.noteLists h

/-! ## The instructions of a crew -/

theorem spWait {b d a x q} (h : s.Canonical) : CanonicalNext (spWait b d a x q s) := by
  refine crewOp fun c g => ite h.illegal ?_
  dsimp only
  split
  · exact finish h
  · exact waitOn h

theorem atomOp {n o d a b q k r p} (h : s.Canonical) : CanonicalNext (atomOp n o d a b q k r p s) :=
  crewOp fun _ _ => ite h.illegal (ite (finish h) h.memUnit)

theorem shardOp {l d a b n q k} (h : s.Canonical) : CanonicalNext (shardOp l d a b n q k s) := by
  refine crewOp fun c g => ite h.illegal ?_
  extract_lets tensor dva u todo
  refine ite h.memUnit ?_
  split
  · exact h.marlEntries_wait ‹_›
  · have kept := h.marlEntries_kept ‹_›
    split
    · extract_lets x ls maps
      split
      · exact kept.marlEntries_wait ‹_›
      · exact memUnit (endMarl (kept.marlEntries_kept ‹_›))
    · exact memUnit (endMarl kept)
    · exact kept

theorem emitOp {d n ok f} (h : s.Canonical) : CanonicalNext (emitOp d n ok f s) := by
  have last : ∀ (s : State) (c : Crew) (g : Cohort), s.Canonical → (s.finish c g).Canonical :=
    fun _ _ _ h => h.finish
  refine crewOp fun c g => ite (h.emitGo last) (ite h.illegal ?_)
  split
  · exact h
  · dsimp only
    split
    · exact h.takeTrap
    · exact h.releasing (h.emitGo last)

theorem enqueueOp {b a} (h : s.Canonical) : CanonicalNext (enqueueOp b a s) := by
  refine crewOp fun c g => ite h.acceptItem ?_
  split
  · exact h.takeTrap
  · split
    · exact h.takeTrap
    · exact h.takeTrap
    · split
      · exact h.takeTrap
      · exact h.takeTrap
      · exact h.acceptItem

theorem execSysrd {d n} (h : s.Canonical) : CanonicalNext (execSysrd d n s) := by
  refine crewOp fun c g => ?_
  split
  · exact h.illegal
  · exact h.finish

theorem execSyswr {a n} (h : s.Canonical) : CanonicalNext (execSyswr a n s) := by
  refine crewOp fun c g => ?_
  split
  · exact h.illegal
  · exact ite h.takeTrap (ite h.illegal h.finish)

theorem execRegclm {n} (h : s.Canonical) : CanonicalNext (execRegclm n s) :=
  crewOp fun _ _ => ite h.finish (ite h.illegal (ite (reform (finish h)) h.waitOn.testDeadlock))

theorem execTrap {a} (h : s.Canonical) : CanonicalNext (execTrap a s) := by
  refine crewOp fun c g => ite h.finish ?_
  split
  · exact ite h (startAbort h)
  · exact startAbort h

theorem execExit (h : s.Canonical) : CanonicalNext (execExit s) :=
  crewOp fun _ _ => ite h.illegal (h.releasing (tryRetire (settle (testDeadlock (testBars (ite (takeTrap h) h))))))

theorem execWaita {k d a b} (h : s.Canonical) : CanonicalNext (execWaita k d a b s) := by
  refine crewOp fun c g => ite h.finish (ite h.waitOn (ite h ?_))
  split
  · exact h.endWatch.finish
  · exact h
  · exact h.joinMerge.waitOn
  · exact ite (h.waitaFar h.newHost) (ite h.finish (ite h.waitaEnd h.waitOn))
  · exact h.waitaEnd
  · exact h.waitaFar h

theorem execWaitaSp {k d a b} (h : s.Canonical) : CanonicalNext (execWaitaSp k d a b s) := by
  refine crewOp fun c g => ?_
  dsimp only
  split
  · exact h.finish
  · exact ite h.finish (ite h.finish h.waitOn)

theorem execDrain (h : s.Canonical) : CanonicalNext (execDrain s) := by
  refine crewOp fun c g => ?_
  split
  · exact h.orderTrap
  · exact ite h.waitOn (ite h h.finish)

theorem execShinv {d a b} (h : s.Canonical) : CanonicalNext (execShinv d a b s) := by
  refine crewOp fun c g => ?_
  dsimp only
  split
  · exact h.takeTrap
  · exact h.releasing (ite h (finish (foldl h fun _ _ h => h)))

theorem execWdq {a} (h : s.Canonical) : CanonicalNext (execWdq a s) := by
  refine crewOp fun c g => ?_
  dsimp only
  split
  · exact h.illegal
  · split
    · exact h.takeTrap
    · exact finish h

theorem execDepsetArm {d a b} (h : s.Canonical) : CanonicalNext (execDepsetArm d a b s) := by
  refine crewOp fun c g => ?_
  dsimp only
  split
  · exact h
  · exact ite h.illegal (ite h.takeTrap (ite h.takeTrap (ite h.illegal (finish (ite (fire h) h)))))

/-! ## The events of the device -/

theorem execEmitWake {u c} (h : s.Canonical) : CanonicalNext (execEmitWake u c s) := by
  have last : ∀ (s : State) (c : Crew) (g : Cohort), s.Canonical →
      (s.putCrew { c with w := { c.w with kind := .none, emits := [] } }).Canonical := fun _ _ _ h => h
  unfold Machine.execEmitWake
  split
  · refine ite h ?_
    split
    · exact h.emitGo last
    · exact h.emitGo last
    · exact h
  · exact h

theorem execPlacementRound {d} (h : s.Canonical) : CanonicalNext (execPlacementRound d s) := by
  unfold Machine.execPlacementRound
  refine ite h ?_
  extract_lets offered _ _ w _ rot awake _ _ _ placed
  have hoffered : offered.Canonical := serveAsks (h.land.formGrids.frame rfl rfl)
  have hw : w.s.Canonical :=
    List.foldlRecOn (motive := fun w : Walked => w.s.Canonical) _ _ hoffered fun _ hw _ _ => walkOne hw
  clear_value w
  have hplaced : placed.Canonical := hw
  clear_value placed
  exact hplaced.serveGrants

theorem execReservationTake {i n e} (h : s.Canonical) : CanonicalNext (execReservationTake i n e s) := by
  unfold Machine.execReservationTake
  split
  · exact h
  · exact ite h (serveAsks h)

theorem execEvictionClaim {d} (h : s.Canonical) : CanonicalNext (execEvictionClaim d s) := by
  have dropped : s.dropClaims.Canonical := h
  refine ite dropped ?_
  dsimp only
  split
  · exact dropped
  · split
    · exact dropped
    · rename_i begun
      have hbegun := dropped.beginSave begun
      exact hbegun

theorem execEvictionSaveComplete {u} (h : s.Canonical) : CanonicalNext (execEvictionSaveComplete u s) := by
  unfold Machine.execEvictionSaveComplete
  split
  · exact h
  · refine ite h (ite h.saveNow ?_)
    split
    · exact h.saveNow
    · dsimp only
      split
      · rename_i begun
        have hbegun := h.saveNow.beginSave begun
        exact hbegun
      · exact h.saveNow.frame rfl rfl

theorem execRunlimitExpiry {u} (h : s.Canonical) : CanonicalNext (execRunlimitExpiry u s) := by
  unfold Machine.execRunlimitExpiry
  split
  · exact h
  · refine ite h ?_
    split
    · exact h.startAbort
    · refine ite h ?_
      split
      · exact ite h.takeTrap (ite h (startAbort h))
      · exact h.takeTrap

theorem execFreezePointReached {u c} (h : s.Canonical) : CanonicalNext (execFreezePointReached u c s) := by
  unfold Machine.execFreezePointReached
  split
  · exact h
  · exact ite h (settle h)

theorem execGraphdeadlock {i} (h : s.Canonical) : CanonicalNext (execGraphdeadlock i s) := by
  unfold Machine.execGraphdeadlock
  split
  · exact h
  · split
    · exact h
    · exact ite h h.haltWith

theorem execInstanceComplete {i} (h : s.Canonical) : CanonicalNext (execInstanceComplete i s) := by
  unfold Machine.execInstanceComplete
  split
  · exact h
  · refine ite h ?_
    dsimp only
    split
    · exact ite (completionWritten (perform h)) h
    · exact completionFailed (devClear h)
    · exact devAskQ h
    · exact h

theorem execCounterPendingEnqueue {i n} (h : s.Canonical) : CanonicalNext (execCounterPendingEnqueue i n s) := by
  unfold Machine.execCounterPendingEnqueue
  split
  · exact ite h.fire h
  · exact h

theorem execLoamRefill {i n e} (h : s.Canonical) : CanonicalNext (execLoamRefill i n e s) := by
  unfold Machine.execLoamRefill
  split
  · exact h
  · dsimp only
    split
    · exact h
    · exact ite (ite h.haltWith h) h

theorem execRemoteRecordArrival {v d n g b r} (h : s.Canonical) :
    CanonicalNext (execRemoteRecordArrival v d n g b r s) := by
  refine ite h ?_
  split
  · exact h
  · refine ite h ?_
    dsimp only
    split
    · rename_i room
      exact (h.enqueue? (Option.ite_none_left_eq_some.1 room).2).recTaken
    · exact ite h h

theorem execRemoteRecordRefused {n} (h : s.Canonical) : CanonicalNext (execRemoteRecordRefused n s) := by
  unfold Machine.execRemoteRecordRefused
  split
  · exact h
  · dsimp only
    split
    · exact h
    · exact refuseHalt h

theorem execDropNotice {n} (h : s.Canonical) : CanonicalNext (execDropNotice n s) := by
  unfold Machine.execDropNotice
  split
  · exact h
  · exact ite h (ite (askFor h) h)

theorem execReservationExpiry {n} (h : s.Canonical) : CanonicalNext (execReservationExpiry n s) := by
  unfold Machine.execReservationExpiry
  split
  · exact h
  · exact ite h (ite (askFor h) (serveGrants h))

theorem execWdqAnswer {n} (h : s.Canonical) : CanonicalNext (execWdqAnswer n s) := by
  unfold Machine.execWdqAnswer
  split
  · exact h
  · exact ite h (afterItem h)

theorem execMatrixStep {c n} (h : s.Canonical) : CanonicalNext (execMatrixStep c n s) := by
  unfold Machine.execMatrixStep
  split
  · exact h
  · split
    · refine ite h ?_
      dsimp only
      split
      · exact h
      · split
        · exact (h.fillScale_of_eq ‹_›).runStep.ranOn
        · exact (h.fillScale_of_eq ‹_›).itemStop
    · exact h

theorem execItemRetire {c n} (h : s.Canonical) : CanonicalNext (execItemRetire c n s) := by
  unfold Machine.execItemRetire
  split
  · exact h
  · refine ite h (afterItem (ite ?_ (ite h h)))
    split
    · split
      · exact ite (decrement (ite h h)) (ite h h)
      · exact ite h h
    · exact ite h h

theorem execItemFailure {c n} (h : s.Canonical) : CanonicalNext (execItemFailure c n s) := by
  unfold Machine.execItemFailure
  split
  · exact h
  · split
    · exact h
    · dsimp only
      split
      · exact ite (afterItem h) (ite (startAbort h) h)
      · exact afterItem h

theorem execCowCopyDone {d c p} (h : s.Canonical) : CanonicalNext (execCowCopyDone d c p s) := by
  unfold Machine.execCowCopyDone
  split
  · refine ite h ?_
    extract_lets _ _ _ copied _ _ shot sent _ closed
    have hsent : sent.Canonical := h.copyFrame.perform.shoot.send
    have hclosed : closed.Canonical := hsent
    exact hclosed.answerPage
  · exact h

theorem execTranslationOutcome {u c p b} (h : s.Canonical) : CanonicalNext (execTranslationOutcome u c p b s) := by
  unfold Machine.execTranslationOutcome
  split
  · refine ite h (foldl h fun s e h => ?_)
    split
    · exact h
    · refine modCrew ?_
      split
      · exact fillTlb (ite h h)
      · exact joinMerge (ite h h)
      · exact ite h h
  · exact h

theorem execLoadReturn {n l} (h : s.Canonical) : CanonicalNext (execLoadReturn n l s) := by
  unfold Machine.execLoadReturn
  split
  · exact h
  · split
    · exact ite h.returnParts h
    · exact h

theorem execStorePerformed {n b} (h : s.Canonical) : CanonicalNext (execStorePerformed n b s) := by
  unfold Machine.execStorePerformed
  split
  · exact h
  · refine ite h (ite (ite h h) (ite h ?_))
    split
    · exact h.perform.storeSeen.storeGone
    · exact h.perform.storeSeen.modCrew.storeGone

theorem execRemoteResponse {r v b} (h : s.Canonical) : CanonicalNext (execRemoteResponse r v b s) := by
  unfold Machine.execRemoteResponse
  split
  · exact h
  · refine ite h (ite h ?_)
    extract_lets vs v
    split
    · exact ite h (ite h (eachPart (fun s l p h => modCrew (ite h.partFault h.partValue)) h))
    · exact ite h (laneStored (fun s e h => h.storeAnswered) h)
    · exact h
    · exact h.servedAnswer
    · exact h
    · exact itemAnswer (endRemote (ite h.hostStore h))
    · exact h
    · exact ite (ite h.recordSent (ite h.recordSent h)) (setAns (ite h.hostStore h))
    · exact h
    · exact endRemote (ite h h.hostStore)
    · exact ite (completionFailed h) h.hostStore.endRemote.completionWritten

theorem execRemoteTimeout {r} (h : s.Canonical) : CanonicalNext (execRemoteTimeout r s) := by
  unfold Machine.execRemoteTimeout
  split
  · exact h
  · refine ite h ?_
    dsimp only
    split
    · exact eachPart (fun s l p h => partValue (ite h h)) h
    · exact laneStored (fun s e h => ite h h) h
    · exact ite h h
    · exact h
    · exact ite h h
    · split
      · exact h
      · exact h
    · exact h
    · exact ite h.recordSent (ite h h)
    · exact ite h h
    · exact h
    · exact ite h.hostStore.endRemote.completionWritten (completionFailed h)

theorem execWaitaWatchAnswer {r v} (h : s.Canonical) : CanonicalNext (execWaitaWatchAnswer r v s) := by
  unfold Machine.execWaitaWatchAnswer
  split
  · exact h
  · split
    · exact ite h (ite h h)
    · exact h

theorem execWaitaWatchRenew {r} (h : s.Canonical) : CanonicalNext (execWaitaWatchRenew r s) := by
  unfold Machine.execWaitaWatchRenew
  split
  · exact h
  · split
    · refine ite h ?_
      split
      · exact h
      · exact ite h.renewHost h
    · exact h

theorem execShinvRelay {p r n l} (h : s.Canonical) : CanonicalNext (execShinvRelay p r n l s) := foldl h fun _ _ h => h

theorem execShinvAck {n c} (h : s.Canonical) : CanonicalNext (execShinvAck n c s) := by
  unfold Machine.execShinvAck
  split
  · exact h
  · exact ite (ite h (shinvDone h)) (shinvDone h)

theorem execShinvFence {n c l} (h : s.Canonical) : CanonicalNext (execShinvFence n c l s) := by
  unfold Machine.execShinvFence
  split
  · exact h
  · split
    · exact h
    · exact ite h (shinvDone (send (foldl h fun _ _ h => h)))

theorem execAtsTranslationResponse {c p a b} (h : s.Canonical) : CanonicalNext (execAtsTranslationResponse c p a b s) :=
  flushFaults (reserve (replay h))

theorem execPriResponse {c p b} (h : s.Canonical) : CanonicalNext (execPriResponse c p b s) := by
  unfold Machine.execPriResponse
  split
  · exact h
  · exact answerPage h

theorem execLaneFailure {p l} (h : s.Canonical) : CanonicalNext (execLaneFailure p l s) := by
  unfold Machine.execLaneFailure
  split
  · exact h
  · exact ite h (portDown h)

theorem execWakeConditionRecheck {u c} (h : s.Canonical) : CanonicalNext (execWakeConditionRecheck u c s) := by
  unfold Machine.execWakeConditionRecheck
  split
  · split
    · split
      · exact ite h h
      · exact h.noteMalformed
    · exact h
  · exact h

/-! ## Firmware, packets and checkpoints -/

theorem setLock {v} (h : s.Canonical) : (s.setLock v).Canonical := ite h h

theorem loadWindow {n l} (h : s.Canonical) : (s.loadWindow n l).Canonical := ite h h.writeKey

theorem execRegisterWrite {n v} (h : s.Canonical) : CanonicalNext (execRegisterWrite n v s) :=
  ite h.setLock (ite (ite h h) (ite h.loadWindow h))

/-- The reset keeps the bytes of host memory alone. -/
theorem execReset (h : s.Canonical) : CanonicalNext (execReset s) := ⟨filter_wf _ _ h.1, h.2⟩

theorem execFirmwareVerifyDone {d p m} (h : s.Canonical) : CanonicalNext (execFirmwareVerifyDone d p m s) :=
  ite h (ite h (ite h (h.writeKey.frame rfl rfl)))

theorem execMailboxSend {i j l} (h : s.Canonical) : CanonicalNext (execMailboxSend i j l s) := ite h (ite h h)

theorem execWalkerVisit {q} (h : s.Canonical) : CanonicalNext (execWalkerVisit q s) := by
  refine ite h ?_
  split
  · exact h
  · exact ite h h
  · exact ite h h

theorem execWaitValue {q} (h : s.Canonical) : CanonicalNext (execWaitValue q s) := by
  refine packet h fun w va => ?_
  split
  · exact h
  · exact h.qRead ‹_›
  · extract_lets x y holds
    split
    · exact h.consume
    · exact setQueue h

theorem execGraphLaunch {q} (h : s.Canonical) : CanonicalNext (execGraphLaunch q s) := by
  refine packet h fun w va => ?_
  dsimp only
  split
  · exact h.launchWrite
  · exact h
  · exact h.devAskQ
  · have launched := h.tryLaunch (q := q) (w := w)
    split <;> (rename_i e; rw [e] at launched)
    · exact launched
    · exact launchWrite h
    · exact launchWrite (s := State.drawSerial _ _ _) launched

theorem execWriteValueDone {q} (h : s.Canonical) : CanonicalNext (execWriteValueDone q s) := by
  refine packet h fun w va => ?_
  split
  · exact h
  · exact h.writeOp

/-- A checkpoint keeps a copy of canonical memory. -/
theorem keep (h : s.Canonical) :
    State.Canonical { s with host := { s.host with tiers := s.host.tiers ++ [s.snapshot] } } := by
  refine ⟨h.1, fun k hk => ?_⟩
  rcases List.mem_append.1 hk with old | new
  · exact h.2 k old
  · cases List.mem_singleton.1 new
    exact snapshot_cells h.1

theorem execCheckpointQuiesced (h : s.Canonical) : CanonicalNext (execCheckpointQuiesced s) := by
  refine ite h ?_
  split
  · exact h
  · exact ite h.checkSave.keep h.checkSave

/-- A restore takes the bytes of the two dies and their carve-outs from the copy, the others as they are. -/
theorem execCheckpointRestore {k} (h : s.Canonical) : CanonicalNext (execCheckpointRestore k s) := by
  unfold Machine.execCheckpointRestore
  split
  · exact h
  · rename_i kept
    have hkept := (h.2 _ (List.mem_of_getElem? kept)).1
    refine ite h (flushFaults (foldl ?_ fun _ _ h => h.joinMerge))
    exact ⟨restored_wf hkept h.1, h.2⟩


/-! ## The shared operations of the instructions -/

theorem scalarOp {d v} (h : s.Canonical) : CanonicalNext (scalarOp d v s) := crewOp fun _ _ => h.finish

theorem predOp {d v} (h : s.Canonical) : CanonicalNext (predOp d v s) := crewOp fun _ _ => h.finish

theorem countOp {d v} (h : s.Canonical) : CanonicalNext (countOp d v s) := crewOp fun _ _ => h.finish

theorem branchOp {o p} (h : s.Canonical) : CanonicalNext (branchOp o p s) := crewOp fun _ _ => h.finishAt

theorem jumpOp {f} (h : s.Canonical) : CanonicalNext (jumpOp f s) := crewOp fun _ _ => ite h.finish h.finishAt

theorem vecOp {d p q f} (h : s.Canonical) : CanonicalNext (vecOp d p q f s) := crewOp fun _ _ => ite h.illegal h.finish

theorem cmpOp {d a b t e q f g} (h : s.Canonical) : CanonicalNext (cmpOp d a b t e q f g s) :=
  crewOp fun _ _ => ite h.illegal h.finish

theorem redOp {b o d a t q r k} (h : s.Canonical) : CanonicalNext (redOp b o d a t q r k s) :=
  crewOp fun _ _ => ite h.illegal h.finish

/-! ## Every instruction and event -/

theorem exec {i} (h : s.Canonical) : CanonicalNext (exec i s) := by
  unfold Machine.exec
  cases i with
  | sadd | ssub | saddi | smul | smulh | smulhN | sand | sor | sxor | sandn | sandi | sori | sxori | sshl
  | sshr | ssra | sshlImm | sshrImm | ssraImm | sset | smin | smax | sminN | smaxN | smov | ssel | smovi
  | smoviHi | sbfx | sbfxN | sbfi | sclz | spopc => exact h.scalarOp
  | pand | por | pxor | pnot => exact h.predOp
  | pcnt | pcntAny | pcntAll => exact h.countOp
  | bra | bcc | bccPred => exact h.branchOp
  | ret | jmpi => exact h.jumpOp
  | vadd | vsub | vaddi | vmul | vmulh | vmad | vdiv | vrem | vand | vor | vxor | vnot | vshl | vshr | vsra
  | vmin | vmax | vsel | vdp4 | vdp8 | vclz | vpopc | vmov | vmovBcast | vmovLane | vmovi | vfadd | vfsub
  | vfmul | vfma | vfms | vfmin | vfmax | vsf | vhad | vshfl => exact h.vecOp
  | vcmpEq | vcmpNe | vcmpLt | vcmpLe | vcmpUn => exact h.cmpOp
  | vred | vscan => exact h.redOp
  | xmset | rngsetSeed | rngsetCtr | rnggetCtr | rnggetSeed | brk | nop | vvote => exact crewOp fun _ _ => h.finish
  | call => exact crewOp fun _ _ => h.finishAt
  | xmpush | xmpop | xmelse | wbase | vcvt | vexpr | vqnt | vtopk | vrng | trd | ttest | vldLp | vstLp | spld
  | spldSt | recldV | recldS => exact crewOp fun _ _ => ite h.illegal h.finish
  | twr | tzero | spst | spset => exact crewOp fun _ _ => ite h.illegal (finish h)
  | sld | sst | vld | vst => exact crewOp fun _ _ => ite h.illegal h.memUnit
  | vatom32 | vatom64 => exact h.atomOp
  | tld | tst => exact h.shardOp
  | splds | spstf => exact h.spWait
  | emit | emitS => exact h.emitOp
  | mmq | cpq => exact h.enqueueOp
  | sysrd => exact h.execSysrd
  | syswr => exact h.execSyswr
  | regrel => exact crewOp fun _ _ => ite h.illegal (grantClaims (reform (finish h)))
  | regclm => exact h.execRegclm
  | trap => exact h.execTrap
  | tret => exact crewOp fun _ _ => ite h.illegal h.tret.tryRetire
  | yield => exact crewOp fun _ _ => ite (ite h.finish h) (waitOn h)
  | exit => exact h.execExit
  | waita => exact h.execWaita
  | waitaSp => exact h.execWaitaSp
  | phase | phaseRel | hintsucc => exact crewOp fun _ _ => h.releasing h.finish
  | phaseAcq => exact crewOp fun _ _ => ite h h.finish
  | drain => exact h.execDrain
  | shinv => exact h.execShinv
  | bar => exact crewOp fun _ _ => ite h.barWait (ite h.illegal h.arrive.barWait)
  | barArv => exact crewOp fun _ _ => ite h.illegal h.arrive.finish
  | barWt => exact crewOp fun _ _ => h.barWait
  | waitpred => exact crewOp fun _ _ => ite h.waitOn (ite h h.finish)
  | wdq => exact h.execWdq
  | depsetArm => exact h.execDepsetArm
  | depsetDec => exact crewOp fun _ _ => finish (decrement h)
  | compactorMoveDone | nodeAges | lingerExpiry | remoteRecordAck | uncorrectableError | correctedError
  | thermalLimit | getVersion | getCapabilities | negotiateAlgorithms | getDigests | getCertificate | challenge
  | getMeasurements =>
    exact h
  | shootdown | deviceAdmit | checkpointStart | checkpointTimeout | atsInvalidation => exact ite h h
  | freezePointReached => exact h.execFreezePointReached
  | placementRound => exact h.execPlacementRound
  | reservationTake => exact h.execReservationTake
  | evictionClaim => exact h.execEvictionClaim
  | evictionSaveComplete => exact h.execEvictionSaveComplete
  | runlimitExpiry => exact h.execRunlimitExpiry
  | graphdeadlock => exact h.execGraphdeadlock
  | instanceComplete => exact h.execInstanceComplete
  | emitWake => exact h.execEmitWake
  | counterPendingEnqueue => exact h.execCounterPendingEnqueue
  | loamSpill => exact ite h h.spill
  | loamRefill => exact h.execLoamRefill
  | remoteRecordArrival => exact h.execRemoteRecordArrival
  | remoteRecordRefused => exact h.execRemoteRecordRefused
  | dropNotice => exact h.execDropNotice
  | reservationRequest => exact ite h (serveGrants h)
  | reservationGrant => exact foldl h fun _ _ h => h.sendOut
  | reservationExpiry => exact h.execReservationExpiry
  | wdqAnswer => exact h.execWdqAnswer
  | taskMma | taskMmaSc | taskMmaInt | taskRingdef | taskTclear => exact startTask (fun _ _ h => h) h
  | matrixStep => exact h.execMatrixStep
  | jobCopy | jobCopy2d | jobGatherbt | jobWiden | jobFillwb => exact h.jobPart
  | itemRetire => exact h.execItemRetire
  | itemFailure => exact h.execItemFailure
  | cowCopyDone => exact h.execCowCopyDone
  | translationOutcome => exact h.execTranslationOutcome
  | pageAnswer => exact h.answerPage
  | contextKill => exact h.killCtx
  | loadReturn => exact h.execLoadReturn
  | storePerformed => exact h.execStorePerformed
  | remoteRequest | waitaWatch => exact h.serve
  | remoteResponse => exact h.execRemoteResponse
  | remoteTimeout => exact h.execRemoteTimeout
  | waitaWatchAnswer => exact h.execWaitaWatchAnswer
  | waitaWatchRenew => exact h.execWaitaWatchRenew
  | shinvRelay => exact h.execShinvRelay
  | shinvAck => exact h.execShinvAck
  | shinvFence => exact h.execShinvFence
  | atsTranslationResponse => exact h.execAtsTranslationResponse
  | priResponse => exact h.execPriResponse
  | laneFailure => exact h.execLaneFailure
  | mailboxSend => exact h.execMailboxSend
  | reset => exact h.execReset
  | firmwareVerifyDone => exact h.execFirmwareVerifyDone
  | fwlockWrite => exact h.setLock
  | loadWindowWrite => exact h.loadWindow
  | registerWrite => exact h.execRegisterWrite
  | walkerVisit => exact h.execWalkerVisit
  | packetNop => exact h.packet fun _ _ => h.consume
  | graphLaunch => exact h.execGraphLaunch
  | writeValue => exact h.packet fun _ _ => h.writeOp
  | writeValueDone => exact h.execWriteValueDone
  | waitValue => exact h.execWaitValue
  | indirect => exact h.packet fun _ _ => h
  | checkpointQuiesced => exact h.execCheckpointQuiesced
  | checkpointRestore => exact h.execCheckpointRestore
  | wakeConditionRecheck => exact h.execWakeConditionRecheck

/-! ## A crew's turn -/

theorem fetchStop {c g va f} (h : s.Canonical) : (s.fetchStop c g va f).Canonical := by
  cases f with
  | word | fenced | need => exact h
  | fault => exact h.takeTrap
  | page => exact h.joinMerge.waitOn
  | remote => exact ite h.waitOn h.newRemote.waitOn
  | host => exact ite h.waitOn h.newHost.waitOn

theorem turn {u i} (h : s.Canonical) : (s.turn u i).state.Canonical := by
  unfold State.turn
  split
  · split
    · exact h
    · split
      · exact h.takeTrap
      · split
        · exact h
        · split
          · exact h
          · exact h.fetchStop
          · exact h.illegal
          · dsimp only
            split
            · exact h
            · exact h
  · exact h

/-! ## Time, outside agents and the step -/

theorem setRoute {d v m} (h : s.Canonical) : (s.setRoute d v m).Canonical := ite (foldl h fun _ _ h => h.sendOut) h

theorem act {a} (h : s.Canonical) : CanonicalNext (act s a) := by
  cases a with
  | issue u c =>
    have turned := h.turn (u := u) (i := c)
    dsimp only [Machine.act]
    split <;> (rename_i e; rw [e] at turned)
    · exact turned.exec
    · exact turned
  | ev i =>
    dsimp only [Machine.act]
    split
    · exact h.exec
    · exact h
  | tick | ctx | fence | receive | failed => exact h
  | write => exact h.agentWrite
  | head => exact noteLists h
  | route => exact h.setRoute
  | timeout | resTime => exact ite h h

theorem step (h : s.Canonical) : CanonicalNext (step s) := by
  unfold Machine.step
  split
  · exact h
  · exact act h

end State.Canonical
end Sys2Proof.Machine

namespace Sys2Proof
open Machine

/-- Settles O58: each instruction and event, and each action of an outside agent, changes the bytes by canonical writes
alone, and a checkpoint copies canonical bytes. -/
theorem memoryInvariant : Obligations.MemoryInvariant := by
  intro s t hmem htiers next
  have stepped := State.Canonical.step ⟨hmem, htiers⟩
  rw [next] at stepped
  exact stepped

end Sys2Proof
end

section
/-! Reset, the firmware load, attestation (R12 to R14, R18, R240 to R243). -/

namespace Sys2Proof.Machine

/-! ## Reset -/

/-- A die has a spare pair for the first failed core of a record (R12, R14). -/
theorem repairDisabled_singleton (core : Nat) : repairDisabled { cores := [core] } = [] := by
  show (Mapping.apply {} core).off = []
  unfold Mapping.apply
  split
  · rfl
  · rfl

/-- The failed slices, channels and stacks of a record disable no core. -/
theorem repairDisabled_cores (r : Repair) : repairDisabled r = repairDisabled { cores := r.cores } := rfl

/-- Nothing is listed in memory after reset. -/
@[simp] theorem byteAt_reset (k : Nat) : State.reset.byteAt k = 0 := rfl

theorem readKey_reset (k : Nat) : State.reset.readKey k 8 = 0 := rfl

/-- BAR 2 reads zero after reset: the record, FWLOCK, FWSTAT, FWLEN and the window (R241, R243). -/
theorem bar2_reset (off : Nat) : State.reset.bar2 off = 0 := by
  have config (i : Nat) : State.reset.host.fw.config.getD i 0 = 0 := by
    show (List.replicate 8 (0 : Word))[i]?.getD 0 = 0
    rw [List.getElem?_replicate]
    split
    · rfl
    · rfl
  have unlocked : State.reset.host.fw.lock = false := rfl
  simp only [State.bar2, config, unlocked, readKey_reset, Bool.false_eq_true, if_false]
  iterate 5
    split
    · rfl
  rfl

/-! ## The load window and the registers of BAR 2 (R241) -/

/-- FWLOCK is set once, and verification begins. -/
theorem setLock_eq (s : State) (v : Word) : s.setLock v = { s with host := { s.host with
    fw := if s.host.fw.lock = false ∧ v.getLsbD 0 = true then { s.host.fw with lock := true, stat := 1 } else s.host.fw } } := by
  unfold State.setLock
  by_cases open_ : s.host.fw.lock = false ∧ v.getLsbD 0 = true
  · rw [if_pos open_, if_neg]
    obtain ⟨unlocked, bit⟩ := open_
    rw [unlocked, bit]
    decide
  · rw [if_neg open_, if_pos]
    cases lock : s.host.fw.lock with
    | true => rfl
    | false =>
      cases bit : v.getLsbD 0 with
      | true => exact absurd ⟨lock, bit⟩ open_
      | false => rfl

theorem loadWindow_locked {s : State} (h : s.host.fw.lock = true) (off : Nat) (data : List Byte) :
    s.loadWindow off data = s := by
  simp [State.loadWindow, h]

theorem loadWindow_open {s : State} (unlocked : s.host.fw.lock = false) (idle : s.host.fw.stat = 0) {off : Nat}
    {data : List Byte} (inside : off + data.length ≤ 2 ^ 28) :
    s.loadWindow off data = s.writeKey (carveOut 0 + off) data := by
  have fits : ¬ windowBytes < off + data.length := by
    unfold windowBytes
    omega
  simp [State.loadWindow, unlocked, idle, fits]

/-! ## Verification of the image (R240, R243) -/

/-- The steps of a rising function add up to its rise. -/
theorem sum_steps {f : Nat → Nat} (rising : ∀ c, f c ≤ f (c + 1)) (n : Nat) :
    f 0 + ((List.range n).map fun c => f (c + 1) - f c).sum = f n := by
  induction n with
  | zero => rfl
  | succ n ih =>
    have step := rising n
    rw [List.range_succ, List.map_append, List.sum_append, List.map_singleton, List.sum_singleton]
    omega

/-- Channels of a die below the first `c` home this many of its frames. -/
def framesBelow (c : Nat) : Nat := (dieFrames * c + 3071) / 3072

/-- The frames of a die, shared out to its pseudo-channels, are all homed. -/
theorem sum_channelFrames_die : ((List.range 3072).map channelFrames).sum = dieFrames := by
  have rising (c : Nat) : framesBelow c ≤ framesBelow (c + 1) :=
    Nat.div_le_div_right (Nat.add_le_add_right (Nat.mul_le_mul_left dieFrames c.le_succ) 3071)
  have steps : (List.range 3072).map channelFrames = (List.range 3072).map fun c => framesBelow (c + 1) - framesBelow c := by
    refine List.map_congr_left fun c hc => ?_
    simp only [channelFrames, Nat.mod_eq_of_lt (List.mem_range.1 hc), framesBelow]
  have first : framesBelow 0 = 0 := by decide
  have last : framesBelow 3072 = dieFrames := by decide
  rw [steps, ← last, ← sum_steps rising 3072, first, Nat.zero_add]

/-- Two periods of a function add up to twice one. -/
theorem sum_two_periods {f : Nat → Nat} {n : Nat} (period : ∀ c, f (n + c) = f c) :
    ((List.range (n + n)).map f).sum = 2 * ((List.range n).map f).sum := by
  have second : f ∘ (n + ·) = f := funext period
  rw [List.range_add, List.map_append, List.map_map, List.sum_append, second, Nat.two_mul]

/-- Channel c of die 1 homes as many frames as channel c of die 0. -/
theorem channelFrames_add_die (c : Nat) : channelFrames (3072 + c) = channelFrames c := by
  simp only [channelFrames, Nat.add_mod_left]

/-- The pseudo-channels of both dies home all their frames. -/
theorem sum_channelFrames : ((List.range 6144).map channelFrames).sum = 2 * dieFrames :=
  (sum_two_periods channelFrames_add_die).trans (congrArg (2 * ·) sum_channelFrames_die)

theorem lost_of_whole {r : Repair} (h : r.whole = true) (c : Nat) : r.lost c = false := by
  simp only [Repair.whole, Bool.and_eq_true, List.isEmpty_iff] at h
  obtain ⟨⟨slices, channels⟩, hbm⟩ := h
  simp [Repair.lost, slices, channels, hbm]

/-- With nothing retired, the device has its 1 TiB without the two carve-outs (R15, R18). -/
theorem memBytes_whole {r : Repair} (h : r.whole = true) : r.memBytes = 0xFFE0000000 := by
  have all : (List.range 6144).filter (fun c => !r.lost c) = List.range 6144 :=
    List.filter_eq_self.2 fun c _ => by rw [lost_of_whole h c]; rfl
  unfold Repair.memBytes
  rw [all, sum_channelFrames]
  rfl

/-- The image that is verified is what the load window holds (R240). -/
theorem image_length (s : State) : s.image.length = s.host.fw.len := by
  simp [State.image]

theorem image_getD {s : State} {k : Nat} (h : k < s.host.fw.len) : s.image.getD k 0 = s.byteAt (carveOut 0 + k) := by
  simp [State.image, h]

/-- The check of an image (R240). -/
theorem imageGood_iff (s : State) : (decide (1 ≤ s.host.fw.len) && decide (s.host.fw.len ≤ windowBytes)
      && Config.signatureVerifies s.image) = true
    ↔ 1 ≤ s.host.fw.len ∧ s.host.fw.len ≤ 2 ^ 28 ∧ Config.signatureVerifies s.image = true := by
  unfold windowBytes
  rw [Bool.and_eq_true, Bool.and_eq_true, decide_eq_true_eq, decide_eq_true_eq, and_assoc]

/-- A check that fails leaves the device down, with the record of a failed check (R243). -/
theorem verify_bad {s : State} (devid porten membytes : Nat) (run : s.host.fw.stat = 1)
    (bad : ¬ (1 ≤ s.host.fw.len ∧ s.host.fw.len ≤ 2 ^ 28 ∧ Config.signatureVerifies s.image = true)) :
    ∃ meas, exec (.firmwareVerifyDone devid porten membytes) s = .next { s with host := { s.host with
      fw := { s.host.fw with stat := 3, config := s.configRecord 0x0F 0 0 0, meas := meas } } } := by
  rw [← imageGood_iff, Bool.not_eq_true] at bad
  apply Exists.intro
  simp only [exec, execFirmwareVerifyDone, run, bad, ne_eq, not_true_eq_false, if_false, Bool.false_and,
    Bool.false_eq_true, Bool.not_false, if_true]
  rfl

/-- A good image goes to the firmware's memory, and the device comes up (R243). -/
theorem verify_good {s : State} (devid porten : Nat) (run : s.host.fw.stat = 1)
    (good : 1 ≤ s.host.fw.len ∧ s.host.fw.len ≤ 2 ^ 28 ∧ Config.signatureVerifies s.image = true) :
    ∃ fab en meas, exec (.firmwareVerifyDone devid porten s.host.applied.memBytes) s
      = .next { s.writeKey (carveOut 1) s.image with
          fab := fab
          host := { s.host with
            heads := List.replicate 8 0
            fw := { s.host.fw with
              stat := 2, boot := 8, devid := devid % 1024, meas := meas
              config := s.configRecord 1 (devid % 1024) en s.host.applied.memBytes } } } := by
  rw [← imageGood_iff] at good
  iterate 3 apply Exists.intro
  simp only [exec, execFirmwareVerifyDone, run, good, ne_eq, not_true_eq_false, if_false, bne_self_eq_false,
    Bool.and_false, Bool.false_eq_true, Bool.not_true]
  rfl

/-! ## Attestation (R242) -/

/-- An SPDM request is answered by one message and changes nothing but the number of answers sent. -/
theorem spdm_answers (s : State) (kind : Nat) (nonce known : List Byte) :
    ∃ t more, Host.Outcome.next (ρ := Refusal) (φ := Fault) (s.spdm kind nonce known) = .next t
      ∧ t.fab.out = s.fab.out ++ [.spdm (known ++ more)] ∧ t.insts = s.insts ∧ t.crews = s.crews ∧ t.mem = s.mem
      ∧ t.host.fw.meas = s.host.fw.meas ∧ t.host.fw.config = s.host.fw.config :=
  ⟨_, _, rfl, rfl, rfl, rfl, rfl, rfl, rfl⟩

end Sys2Proof.Machine

namespace Sys2Proof
open Machine

/-- Settles O50: RESET rebuilds the state from its reset value, keeps the cells of host memory alone, and one failed core
finds a spare pair. -/
theorem reset : Obligations.Reset := by
  refine ⟨fun s => ⟨_, rfl, rfl, rfl, rfl, rfl, rfl, rfl, rfl, rfl, rfl, rfl, rfl, rfl, rfl, rfl, ?hbm, ?host,
    fun _ => Iff.rfl, rfl, ?spare⟩, rfl, rfl, byteAt_reset, rfl, rfl, rfl, rfl, bar2_reset⟩
  case hbm =>
    intro k hk
    refine (SMap.get_keep Memory.absent (fun k => k / 2 ^ 56 == 2) s.mem.mem k).trans (if_neg ?_)
    simpa using hk
  case host =>
    intro k hk
    refine (SMap.get_keep Memory.absent (fun k => k / 2 ^ 56 == 2) s.mem.mem k).trans (if_pos ?_)
    simpa using hk
  case spare =>
    intro few
    show repairDisabled s.host.repair = []
    rw [repairDisabled_cores]
    rcases few with none_ | ⟨core, one⟩
    · rw [none_]
      rfl
    · rw [one, repairDisabled_singleton]

/-- The load of the firmware (R240, R241, R243). -/
theorem firmwareLoad : Spec.FirmwareLoad := by
  intro s
  refine ⟨fun v => congrArg Host.Outcome.next (setLock_eq s v),
    fun v => ⟨fun unlocked => ?len, fun locked => ?locked, ?others⟩,
    fun off data => ⟨fun locked => congrArg Host.Outcome.next (loadWindow_locked locked off data),
      fun unlocked idle inside => ?window⟩,
    fun devid porten membytes run => ⟨fun good hmem => ?good, fun bad => ?bad⟩⟩
  case len => simp [exec, execRegisterWrite, unlocked]
  case locked => simp [exec, execRegisterWrite, locked]
  case others =>
    intro off below lock len
    simp only [exec, execRegisterWrite, lock, len, Nat.not_le.2 below, if_false]
  case window =>
    refine ⟨_, congrArg Host.Outcome.next (loadWindow_open unlocked idle inside), rfl, rfl, fun k => ?_⟩
    rw [State.byteAt_writeKey, Nat.add_sub_add_left]
    simp only [Nat.add_assoc, Nat.add_le_add_iff_left, Nat.add_lt_add_iff_left]
  case good =>
    rw [hmem]
    obtain ⟨fab, en, meas, next⟩ := verify_good devid porten run good
    refine ⟨_, next, rfl, ?word0, rfl, rfl, rfl, rfl, rfl, fun whole => ?size, fun k hk => ?image⟩
    case word0 => exact congrArg (BitVec.ofNat 64) (by omega)
    case size => exact congrArg (BitVec.ofNat 64) (memBytes_whole whole)
    case image =>
      refine (State.byteAt_writeKey s _ _ _).trans ?_
      rw [if_pos (by rw [image_length]; omega), Nat.add_sub_cancel_left, image_getD hk]
  case bad =>
    obtain ⟨meas, next⟩ := verify_bad devid porten membytes run bad
    exact ⟨_, next, rfl, congrArg (BitVec.ofNat 64) (by omega), rfl, rfl, rfl, rfl⟩

/-- The answers of the device's identity (R242). -/
theorem attestation : Spec.Attestation := fun s nonce =>
  ⟨spdm_answers s 0 [] [], spdm_answers s 1 [] [], spdm_answers s 2 [] [], spdm_answers s 3 [] [], spdm_answers s 4 [] [],
    spdm_answers s 5 nonce [], spdm_answers s 6 nonce s.host.fw.meas.flatten⟩

/-- Settles O51: the branches of each register write and of the verification, with what their writes leave in the firmware's
memory and in the record, and the one message of an SPDM answer. -/
theorem firmwareAndAttestation : Obligations.FirmwareAndAttestation := ⟨firmwareLoad, attestation⟩

end Sys2Proof
end

section
/-! GRAPH_LAUNCH into a device whose grants promise more places of a Loam bank than it has (R72, R234). -/

namespace Sys2Proof.Machine.OverpromisedBank

/-- The header of an image and the descriptor of its one node. -/
def header : List Word := [0x13149474C, 0x80, 0, 0, 0, 0, 0, 0]
def descriptor : List Word := [0x1000, 0, 1, 0x0101010101010100, 1, 1, 1, 1, 0, 0, 0, 0, 0, 0, 0, 0]

/-- A GRAPH_LAUNCH of the image at 0x4000 with tag 7, a save area of two slots, no initial record and no Silt block; its
status word is at 0x6000. -/
def launch : List Word := [1, 0x4000, 0, 0, 0, 0, 0, 0, 0, 7, 0, 8192, 0, 0, 0, 0x6000]

/-- Memory with these words from an address on. -/
def wordsAt (va : Nat) (l : List Word) (m : List Host.Cell) : List Host.Cell :=
  putBytes m va (wordBytes (l.map BitVec.toNat))

/-- The queue at 0x7000 holds the launch in its ring at 0x5000, and the walker visits it; one page at its own addresses
holds everything. Two grants under another tag, each within the bank's 32,768 slots, promise 40,000 places of bank 0. -/
def state : State :=
  { mem := { mem := wordsAt 0x7000 [0, 0x5000, 0, 1] (wordsAt 0x5000 launch (wordsAt 0x4080 descriptor (wordsAt 0x4000 header []))) }
    mmu := { ctxs := [{ n := 0 }], tlb := [{ ctx := 0, page := 0, level := 4, leaf := 4 }] }
    fab := { grants := [{ id := 1, src := 1, tag := 8, node := 0, elem := 0, n := 20000, until_ := 0 },
                        { id := 2, src := 1, tag := 8, node := 0, elem := 24, n := 20000, until_ := 0 }] }
    host := { visit := some ⟨7, 0x7000, 8⟩, fw := { boot := 8 } } }

/-- The words that a read gave. -/
def words? : QRes (List Word) → Option (List Word)
  | .ok w => some w
  | _ => none

theorem eq_ok_of_words? {r : QRes (List Word)} {w : List Word} (h : words? r = some w) : r = .ok w := by
  cases r with
  | ok v => exact congrArg QRes.ok (Option.some.inj h)
  | fail | wait => cases h

/-- The state that an accepted launch gave. -/
def accepted? : LRes State → Option State
  | .ok u => some u
  | _ => none

theorem eq_ok_of_accepted? {r : LRes State} {u : State} (h : accepted? r = some u) : r = .ok u := by
  cases r with
  | ok v => exact congrArg LRes.ok (Option.some.inj h)
  | refuse | wait => cases h

theorem atPacket : Spec.AtPacket state 0x7000 launch :=
  ⟨rfl, ⟨_, rfl, rfl, by decide⟩, by decide +kernel, rfl, eq_ok_of_words? (by decide +kernel), by decide +kernel⟩

theorem reads_header : state.qReads 0x7000 0x4000 8 = .ok header := eq_ok_of_words? (by decide +kernel)

theorem reads_descriptor : state.qReads 0x7000 0x4080 16 = .ok descriptor := eq_ok_of_words? (by decide +kernel)

theorem statusWord_home : state.devWord (.queue 0x7000) (state.qsbCtx 0x7000) 0x6000 .store = .ok 0x6000 := by decide +kernel

/-- With no record to place, the launch is accepted; its status word is where it was. -/
theorem accepted : ∃ u, state.tryLaunch 0x7000 launch = .ok u
    ∧ u.devWord (.queue 0x7000) (u.qsbCtx 0x7000) 0x6000 .store = .ok 0x6000 := by
  have ok : (accepted? (state.tryLaunch 0x7000 launch)).any
      (fun u => u.devWord (.queue 0x7000) (u.qsbCtx 0x7000) 0x6000 .store = .ok 0x6000) = true := by decide +kernel
  obtain ⟨u, hu, home⟩ := Option.any_eq_true .. |>.1 ok
  exact ⟨u, eq_ok_of_accepted? hu, of_decide_eq_true home⟩

theorem bank_full : 32768 < state.bankCount 0 + state.bankGranted 0 := by decide +kernel

/-- No completion edge leaves the node. -/
theorem no_edge : ∀ e < 4, Spec.bits (descriptor.getD 13 0) (16 * e + 15) (16 * e) = 0 := by decide

theorem node_good : ¬ Spec.NodeBad (fun i => descriptor.getD (16 * 0 + i) 0) 1 0 := by
  unfold Spec.NodeBad
  decide +kernel

theorem image_good : ¬ Spec.ImageBad header descriptor := by
  rintro (magic | none_ | many | table | high | ⟨i, from2, to8, rest⟩ | ⟨k, below, bad⟩ | ⟨f, m, turns, -, edge⟩)
  · exact absurd magic (by decide)
  · exact absurd none_ (by decide)
  · exact absurd many (by decide)
  · exact absurd table (by decide)
  · exact absurd high (by decide)
  · exact rest ((by decide : ∀ i < 8, 2 ≤ i → header.getD i 0 = 0) i to8 from2)
  · have first : k = 0 := Nat.lt_one_iff.1 below
    subst first
    exact node_good bad
  · obtain ⟨inside, e, he, target⟩ := edge 0 turns
    have first : f 0 = 0 := Nat.lt_one_iff.1 inside
    rw [first, no_edge e he] at target
    omega

theorem node_placeable : ¬ Spec.Unplaceable state (fun i => descriptor.getD (16 * 0 + i) 0) 0 := by
  have enabled : ∀ die < 2, 96 * die / 96 = die ∧ state.coreEnabled (96 * die) = true := by decide
  rintro ⟨die, two, -, none_⟩
  obtain ⟨onDie, on⟩ := enabled die two
  exact absurd (none_ _ onDie on).1 (by decide)

end Sys2Proof.Machine.OverpromisedBank

namespace Sys2Proof
open Machine Machine.OverpromisedBank

/-- Refutes O53: the statement asks for status 9 whenever some bank is too full, also when no initial record goes there.
The grants of this state promise more places of bank 0 than it has, and its launch has no record that wants one: the model
accepts it, as R234 asks, so that the statement claims both status 0 and status 9 for it. -/
theorem not_graphLaunches : ¬ Obligations.GraphLaunches := by
  intro claim
  obtain ⟨-, -, onAccept, -, onImage⟩ := claim state 0x7000 launch 0x6000 atPacket rfl (by simp [state]) (by decide) (by decide)
  obtain ⟨u, passes, home⟩ := accepted
  obtain ⟨ends0, -⟩ := onAccept u passes
  obtain ⟨t, next, -, -, -, status0⟩ := ends0 statusWord_home home
  have ends9 := ((((onImage header reads_header).2 descriptor reads_descriptor).2.2 [] rfl).2 ?noCause).1 ?fresh rfl ?full
  case noCause =>
    simp only [List.forall_mem_cons]
    refine ⟨image_good, ?record, ?place, by decide, ?slot, ?dep, ?halted, ?tag, fun _ h => nomatch h⟩
    case record => exact fun ⟨k, below, _⟩ => Nat.not_lt_zero k below
    case place =>
      rintro ⟨k, below, bad⟩
      obtain rfl : k = 0 := Nat.lt_one_iff.1 below
      exact node_placeable bad
    case slot => exact fun taken => nomatch taken 0 (by decide)
    case dep | halted => exact fun ⟨dependent, _⟩ => absurd dependent (by decide)
    case tag => exact fun ⟨_, live, _⟩ => nomatch live
  case fresh => decide
  case full => exact ⟨0, bank_full⟩
  obtain ⟨t', next', -, -, -, status9⟩ := ends9 statusWord_home statusWord_home
  obtain rfl : t = t' := Host.Outcome.next.inj (next.symm.trans next')
  exact absurd (status0.symm.trans status9) (by decide)

end Sys2Proof
end

section
/-! A crew's turn (R93, R249): the fetch word by word of a unit whose words stand at their homes, the scoreboard of a crew
with nothing on its way, and the step that they end in. -/

namespace Sys2Proof.Machine

/-! ## The words of a unit -/

/-- The crew with the words `held` fetched for its unit. -/
def Crew.holding (c : Crew) (held : SMap Nat) : Crew := { c with x := { c.x with ibuf := held } }

/-- The address of word `k` of a unit at `pc`. -/
def wordVa (pc : Word) (k : Nat) : Word := pc + BitVec.ofNat 64 (4 * k)

theorem wordVa_zero (pc : Word) : wordVa pc 0 = pc := by simp [wordVa]

theorem wordVa_succ (pc : Word) (k : Nat) : wordVa pc (k + 1) = wordVa pc k + 4 := by
  unfold wordVa
  bv_omega

/-- The words that one turn looks at have different addresses, also where they wrap. -/
theorem wordVa_ne {j k : Nat} (ne : j ≠ k) (hj : j < 1024) (hk : k < 1024) (pc : Word) :
    (wordVa pc j).toNat ≠ (wordVa pc k).toNat := by
  unfold wordVa
  bv_omega

/-- A load of four bytes at `va` finds the word `w` at a home of this device, outside host memory, on sound data. -/
def State.WordAt (s : State) (c : Crew) (h : Cohort) (va : Word) (w : Nat) : Prop :=
  ∃ k, s.lane c (h.coreOf c.idx) h.ctx va .load = .home k ∧ k / 2 ^ 56 ≠ 2 ∧ s.poisoned k 4 = false
    ∧ (s.readKey k 4).toNat = w

/-! ## What the agenda does not change -/

theorem walkFrom_agenda (s : State) (rest : List Action) (sp die off : Nat) (l : List (Nat × Nat × Nat)) (table : Nat) :
    walkFrom { s with agenda := rest } sp die off l table = walkFrom s sp die off l table := by
  induction l generalizing table with
  | nil => rfl
  | cons e l ih =>
    simp only [walkFrom, ih]
    rfl

theorem State.lane_agenda (s : State) (rest : List Action) (c : Crew) (core ctxn : Nat) (va : Word) (a : Acc) :
    ({ s with agenda := rest } : State).lane c core ctxn va a = s.lane c core ctxn va a := by
  have translated : ({ s with agenda := rest } : State).xlate ctxn va a false = s.xlate ctxn va a false := by
    simp only [State.xlate, walkFrom_agenda]
    rfl
  simp only [State.lane, translated]
  rfl

/-! ## The fetch -/

section Fetch
variable {s : State} {c : Crew} {h : Cohort} {va : Word} {w : Nat} {held : SMap Nat}

/-- A word that the crew does not hold yet is read at its home. -/
theorem State.WordAt.fetch (at_ : s.WordAt c h va w) (new_ : SMap.get 0 held va.toNat = 0) :
    s.fetchWord (c.holding held) h va = .word w := by
  obtain ⟨k, lane, notHost, sound, rfl⟩ := at_
  have lane' : s.lane (c.holding held) (h.coreOf (c.holding held).idx) h.ctx va .load = .home k := lane
  have new' : SMap.get 0 (c.holding held).x.ibuf va.toNat = 0 := new_
  simp only [State.fetchWord, new', lane', notHost, sound, if_false, Bool.false_eq_true]

/-- A fetched word after which the unit is not whole is held, and the fetch goes on. -/
theorem State.fetchRun_more (fetched : s.fetchWord (c.holding held) h va = .word w) {ws : List Nat}
    (more : decode (ws ++ [w]) = .more) (fuel : Nat) :
    s.fetchRun h va (fuel + 1) ws (c.holding held)
      = s.fetchRun h (va + 4) fuel (ws ++ [w]) (c.holding (SMap.set 0 held va.toNat (w + 1))) := by
  simp only [State.fetchRun, fetched, more]
  rfl

/-- A fetched word that makes the unit whole is held, and the fetch is over. -/
theorem State.fetchRun_last (fetched : s.fetchWord (c.holding held) h va = .word w) {ws : List Nat} {i : Instr} {n : Nat}
    (whole : decode (ws ++ [w]) = .ok i n) (fuel : Nat) :
    s.fetchRun h va (fuel + 1) ws (c.holding held) = (.unit i n, c.holding (SMap.set 0 held va.toNat (w + 1))) := by
  simp only [State.fetchRun, fetched, whole]
  rfl

/-- From word `k` on, with fuel for the words that are left, the fetch ends in the unit, if these words stand at their
homes and none of them is held yet. -/
theorem State.fetchRun_unit {ws : List Nat} {i : Instr} (small : ws.length ≤ 1024)
    (at_ : ∀ k < ws.length, s.WordAt c h (wordVa c.r.pc k) (ws.getD k 0)) (whole : decode ws = .ok i ws.length)
    (part : ∀ k < ws.length, decode (ws.take k) = .more) (fuel k : Nat) (held : SMap Nat) (inside : k < ws.length)
    (enough : ws.length ≤ k + fuel)
    (new_ : ∀ j, k ≤ j → j < ws.length → SMap.get 0 held (wordVa c.r.pc j).toNat = 0) :
    ∃ all, s.fetchRun h (wordVa c.r.pc k) fuel (ws.take k) (c.holding held) = (.unit i ws.length, c.holding all) := by
  induction fuel generalizing k held with
  | zero => omega
  | succ fuel ih =>
    have grown : ws.take k ++ [ws.getD k 0] = ws.take (k + 1) := by
      rw [List.getD_eq_getElem?_getD, List.getElem?_eq_getElem inside, Option.getD_some, List.take_append_getElem]
    have fetched := (at_ k inside).fetch (new_ k (Nat.le_refl k) inside)
    rcases Nat.lt_or_eq_of_le (show k + 1 ≤ ws.length from inside) with more | last
    · rw [State.fetchRun_more fetched (grown ▸ part (k + 1) more), grown, ← wordVa_succ]
      refine ih (k + 1) _ more (by omega) fun j from_ below => ?_
      rw [SMap.get_set, if_neg (wordVa_ne (by omega) (by omega) (by omega) _)]
      exact new_ j (by omega) below
    · exact ⟨_, State.fetchRun_last fetched (by rw [grown, last, List.take_length, whole]) fuel⟩

/-- A crew that holds no word yet fetches its unit in one turn. -/
theorem State.fetchUnit_unit {ws : List Nat} {i : Instr} (nonempty : 0 < ws.length) (small : ws.length ≤ 1024)
    (at_ : ∀ k < ws.length, s.WordAt c h (wordVa c.r.pc k) (ws.getD k 0)) (whole : decode ws = .ok i ws.length)
    (part : ∀ k < ws.length, decode (ws.take k) = .more) (none_ : c.x.ibuf = []) :
    ∃ all, s.fetchUnit c h = (.unit i ws.length, c.holding all) := by
  obtain ⟨all, run⟩ := State.fetchRun_unit small at_ whole part 1024 0 [] nonempty (by omega) fun _ _ _ => rfl
  have self : c.holding [] = c := by rw [← none_]; rfl
  rw [wordVa_zero, List.take_zero, self] at run
  refine ⟨all, ?_⟩
  rw [State.fetchUnit, none_]
  exact run

end Fetch

/-! ## The scoreboard and the turn -/

/-- The scoreboard holds back no unit of a crew with no load, store or atomic on its way, in a cohort without items. -/
theorem State.scoreboard_idle {s : State} {c : Crew} {h : Cohort} (loads : ∀ l ∈ s.mem.loads, l.uid ≠ c.uid ∨ l.idx ≠ c.idx)
    (stores : ∀ e ∈ s.mem.stores, e.uid ≠ c.uid ∨ e.idx ≠ c.idx) (items : s.itemsOf h.uid = []) (i : Instr) :
    s.scoreboard c h i = none := by
  have noLoad : s.mem.loads.filter (fun l => l.uid == c.uid && l.idx == c.idx && !c.w.own.contains l.id) = [] :=
    List.filter_eq_nil_iff.2 fun l hl => by rcases loads l hl with e | e <;> simp [e]
  have noStore : s.mem.stores.filter (fun e => e.uid == c.uid && e.idx == c.idx && !c.w.own.contains e.id) = [] :=
    List.filter_eq_nil_iff.2 fun e he => by rcases stores e he with d | d <;> simp [d]
  have noneOut : s.pending c = [] := by simp only [State.pending, noLoad, noStore, List.flatMap_nil, List.map_nil, List.append_nil]
  have noTile : s.tileBusy c h (c.uses i) = false := by rw [State.tileBusy, items, List.any_nil]
  simp [State.scoreboard, noneOut, noTile]

/-- The crew with the length of its unit set to `n` words. -/
def Crew.withLength (c : Crew) (n : Nat) : Crew := { c with r := { c.r with ulen := 4 * n } }

/-- What a turn of crew `c` does to its graph: it is stuck no longer, unless the crew only tests its wait again (R75). -/
def State.unstick (s : State) (c : Crew) (h : Cohort) (a : Inst) : Inst := if s.inWait h c then a else { a with stuck := none }

theorem State.unstick_but_stuck (s : State) (c : Crew) (h : Cohort) (a : Inst) :
    { s.unstick c h a with stuck := none } = { a with stuck := none } := by
  unfold State.unstick
  split <;> rfl

/-- The turn of a crew that may issue, with no trap and no wait, whose unit is fetched and clear of the scoreboard. -/
theorem State.turn_runs {s : State} {u idx n : Nat} {c c1 : Crew} {h : Cohort} {i : Instr} (crew : s.crew? u idx = some c)
    (cohort : s.cohort? u = some h) (may : c.mayIssue h = true) (noTrap : c.pend = []) (noWait : c.w = {})
    (fetched : s.fetchUnit c h = (.unit i n, c1)) (still : c1.w = c.w) (clear : s.scoreboard (c1.withLength n) h i = none) :
    s.turn u idx = .run i (({ s.putCrew (c1.withLength n) with cur := (u, idx) }).modInst h.inst (s.unstick c h)) := by
  have awake : c.emitting = false := by simp [Crew.emitting, noWait]
  have kept : (if c1.w.kind = .remote then .none else c1.w.kind) = c1.w.kind := by rw [still, noWait]; rfl
  unfold Crew.withLength at clear ⊢
  simp only [State.turn, crew, cohort, may, noTrap, awake, fetched, clear, kept]
  rfl

end Sys2Proof.Machine

namespace Sys2Proof
open Machine

/-- Settles O57: the turn fetches the unit word by word, and nothing on its way holds it at the scoreboard. -/
theorem stepRunsDecoded : Obligations.StepRunsDecoded := by
  intro s u idx rest c h i n ws key turn crew uid idx_ cohort may noTrap noWait noWord loads stores items nonempty small
    length whole part home
  subst uid idx_ length
  let s0 : State := { s with agenda := rest }
  have at_ : ∀ k < ws.length, s0.WordAt c h (wordVa c.r.pc k) (ws.getD k 0) := fun k below =>
    ⟨key k, (s.lane_agenda ..).trans (home k below).1, (home k below).2⟩
  obtain ⟨held, fetched⟩ := State.fetchUnit_unit nonempty small at_ whole part noWord
  let c1 : Crew := (c.holding held).withLength ws.length
  have clear : s0.scoreboard c1 h i = none := State.scoreboard_idle loads stores items i
  have runs := State.turn_runs (s := s0) crew cohort may noTrap noWait fetched rfl clear
  refine ⟨held, (s0.modInst h.inst (s0.unstick c h)).insts, ?step, ⟨?crew, cohort⟩, ?insts⟩
  case step =>
    rw [step, turn]
    show act s0 _ = _
    rw [act, runs]
    rfl
  case crew => exact (State.crew?_putCrew (s := s0) (c := c1) crew ..).trans (if_pos ⟨rfl, rfl⟩)
  case insts =>
    show (s.insts.map _).map _ = _
    rw [List.map_map]
    refine List.map_congr_left fun a _ => ?_
    rw [Function.comp_apply]
    split
    · exact s0.unstick_but_stuck c h a
    · rfl

end Sys2Proof
end
